-- ==== Sys2Proof/Word.lean ====
section
/-! DEFINITION. The word: what every bus, register, ALU slot, latch and memory cell holds (R6, R62, R148). A value of the machine is a
signed integer, an `Int`. Its width `W` is a parameter (R5, decision D1), so the range is not in the type: `InWidth` states it, every
result is wrapped into it, and that the step keeps it is an invariant (log 2). -/

namespace Sys2Proof

/-- The range of R6: the signed two's-complement integers of `w` bits. -/
abbrev InWidth (w : Nat) (v : Int) : Prop := -((2 ^ (w - 1) : Nat) : Int) ≤ v ∧ v < ((2 ^ (w - 1) : Nat) : Int)

/-- `wrap(v)` of R6: the integer in the range of `w` bits that is congruent to `v` modulo `2^w`. -/
def wrap (w : Nat) (v : Int) : Int := Int.bmod v (2 ^ w)

end Sys2Proof
end

