-- ==== Sys2Proof/Config.lean ====
section
/-! DEFINITION. The parameters of the hardware (R5): the record of those a machine carries as an argument of its step, and, as constants
(R43 allows either), the three sizes that the shape of the machine fixes. The default VALUES stand in Decode.lean (`defaultConfig`). -/

namespace Sys2Proof

/-- Cells of the status-selector memory: the two that `SelCell` names (R5, R37). -/
abbrev SELMEMSIZE : Nat := 2

/-- Bits of the flags register: the two that `FlagBit` names (R5, R30). -/
abbrev NFLAGS : Nat := 2

/-- Entries of the instruction table (R5, R40). -/
abbrev NOPC : Nat := 29

/-- The 29 mnemonics, in the order R93 lists them. -/
inductive Mnemonic
  | add | sub | addRegReg | subRegReg | addMemReg | subMemReg | addRegMem | subRegMem | addImmReg | subImmReg
  | moveMemReg | moveRegMem | moveRegReg | moveImmReg | inc | incReg
  | jmp | jz | jn | jeq | jneq | jgt | jlw
  | read | store | ldi
  | imulMemReg | imulRegMem | imulRegReg
  deriving DecidableEq, Repr

/-- `JMP_MODE`: whether `jmp` loads PC from `memory[operand]` or from the operand itself (R5, R191, C1). -/
inductive JmpMode
  | indirect | direct
  deriving DecidableEq, Repr

/-- `IMUL_MODE`: what the three multiply placeholders do (R5, R209). -/
inductive ImulMode
  | fault | nopAdvance | nopStay
  deriving DecidableEq, Repr

/-- The parameters of R5 that the machine's step or reset takes as an argument (92_eei_decisions.md, last paragraph). They are fixed
for a machine: no step changes them (log 4). -/
structure Config where
  /-- `W`: bits of every value (R5, R6; decision D1, log 2). -/
  w : Nat
  /-- `MEMSIZE`: cells of main memory (R5, R36). -/
  memsize : Nat
  /-- `NGPR`: general registers (R5, R21, R23; decision D2, log 3). -/
  ngpr : Nat
  /-- `OPCODE_MAP`: position `op` holds the mnemonic of opcode `op` (R93). -/
  opcodeMap : List Mnemonic
  jmpMode : JmpMode
  imulMode : ImulMode
  /-- `MEM_FILL`: every main-memory cell the program image does not cover (R5, R246). -/
  memFill : Int
  /-- `RESET_VALUE`: every register but PC, every bus, slot, latch and selector cell after reset (R5, R42). -/
  resetValue : Int
  deriving DecidableEq, Repr

/-- `NREG`: entries of the register file list, `NGPR + 5` (R5, R21). -/
def Config.nreg (c : Config) : Nat := c.ngpr + 5

/-- `OPCODE_MAP` is a bijection from `0 .. NOPC-1` to the mnemonics (R5): dense, without repeats, and onto. -/
def Config.tableWf (c : Config) : Prop :=
  c.opcodeMap.length = NOPC ∧ c.opcodeMap.Nodup ∧ ∀ m : Mnemonic, m ∈ c.opcodeMap

/-- The parameters of a machine: the table is a bijection; `W >= 9`, and the addresses can be represented (D1); RPG0 and RPG1 exist
(D2); MEM_FILL and RESET_VALUE are values (R6). -/
def Config.wf (c : Config) : Prop :=
  c.tableWf ∧ 9 ≤ c.w ∧ c.memsize ≤ 2 ^ (c.w - 1) ∧ 2 ≤ c.ngpr ∧ InWidth c.w c.memFill ∧ InWidth c.w c.resetValue

end Sys2Proof
end

