-- ==== Sys2Proof/Syntax.lean ====
section
/-! DEFINITION. The instructions: one constructor per row of spec/opcode_table.json, operands in memory order (R90, R93). -/

namespace Sys2Proof

/-- An operand cell used as a main-memory address or as a jump target (R92, kind `addr`). -/
abbrev AddrOp := Int

/-- An operand cell that is itself the datum (R92, kind `imm`). -/
abbrev ImmOp := Int

/-- An operand cell used as an index into the register file (R92, kind `regId`). Every cell value can stand there. -/
abbrev RegOp := Int

/-- An instruction with its operand cells, each a whole cell (R90, R92). -/
inductive Instr
  | add (addr : AddrOp)
  | sub (addr : AddrOp)
  | addRegReg (regA regB : RegOp)
  | subRegReg (regA regB : RegOp)
  | addMemReg (addr : AddrOp) (regId : RegOp)
  | subMemReg (addr : AddrOp) (regId : RegOp)
  | addRegMem (regId : RegOp) (addr : AddrOp)
  | subRegMem (regId : RegOp) (addr : AddrOp)
  | addImmReg (imm : ImmOp) (regId : RegOp)
  | subImmReg (imm : ImmOp) (regId : RegOp)
  | moveMemReg (addr : AddrOp) (regId : RegOp)
  | moveRegMem (regId : RegOp) (addr : AddrOp)
  | moveRegReg (regA regB : RegOp)
  | moveImmReg (imm : ImmOp) (regId : RegOp)
  | inc
  | incReg (regId : RegOp)
  | jmp (addr : AddrOp)
  | jz (addr : AddrOp)
  | jn (addr : AddrOp)
  | jeq (regA regB : RegOp) (addr : AddrOp)
  | jneq (regA regB : RegOp) (addr : AddrOp)
  | jgt (regA regB : RegOp) (addr : AddrOp)
  | jlw (regA regB : RegOp) (addr : AddrOp)
  | read (addr : AddrOp)
  | store (addr : AddrOp)
  | ldi (imm : ImmOp)
  | imulMemReg
  | imulRegMem
  | imulRegReg
  deriving DecidableEq, Repr

end Sys2Proof
end

