-- ==== Sys2Proof/WellFormed.lean ====
section
/-! DEFINITION. Legal operands (R92): which operand values an instruction may hold without its own use of them faulting. Every
operand value can be ENCODED (R92, R96), so an ill-formed instruction still decodes and still executes; it faults
where its rule says. -/

namespace Sys2Proof

/-- R92, kind `imm`: every value of a cell is legal (R6). -/
def immLegal (c : Config) (v : Int) : Bool := decide (InWidth c.w v)

/-- R92, kind `addr`: a value of a cell, and `0 <= addr < MEMSIZE`. -/
def addrLegal (c : Config) (a : Int) : Bool := decide (InWidth c.w a ∧ 0 ≤ a ∧ a < (c.memsize : Int))

/-- R92, kind `regId`: a value of a cell, and an index of the register file list, `0 .. NREG-1`. -/
def regIndexLegal (c : Config) (r : Int) : Bool := decide (InWidth c.w r ∧ 0 ≤ r ∧ r < (c.nreg : Int))

/-- A register operand moved over EXT: an index of the list, not FLAGS, which stands at `NGPR+4` (R21, R92, R118). -/
def regLegalOnExt (c : Config) (r : Int) : Bool := regIndexLegal c r && decide (r ≠ (c.ngpr : Int) + 4)

/-- A register operand moved over INT1 or INT2: neither FLAGS nor a stack register, at `NGPR` and `NGPR+1` (R21, R92, R118). -/
def regLegalOnInternal (c : Config) (r : Int) : Bool :=
  regLegalOnExt c r && decide (r ≠ (c.ngpr : Int)) && decide (r ≠ (c.ngpr : Int) + 1)

/-- Every operand is legal under the given parameters (R92). -/
def Instr.wellFormed (c : Config) : Instr → Bool
  | .add a => addrLegal c a
  | .sub a => addrLegal c a
  | .addRegReg ra rb => regLegalOnInternal c ra && regLegalOnInternal c rb
  | .subRegReg ra rb => regLegalOnInternal c ra && regLegalOnInternal c rb
  | .addMemReg a r => addrLegal c a && regLegalOnInternal c r
  | .subMemReg a r => addrLegal c a && regLegalOnInternal c r
  | .addRegMem r a => regLegalOnInternal c r && addrLegal c a
  | .subRegMem r a => regLegalOnInternal c r && addrLegal c a
  | .addImmReg v r => immLegal c v && regLegalOnInternal c r
  | .subImmReg v r => immLegal c v && regLegalOnInternal c r
  | .moveMemReg a r => addrLegal c a && regLegalOnExt c r
  | .moveRegMem r a => regLegalOnExt c r && addrLegal c a
  | .moveRegReg ra rb => regLegalOnExt c ra && regLegalOnExt c rb
  | .moveImmReg v r => immLegal c v && regLegalOnExt c r
  | .inc => true
  | .incReg r => regLegalOnInternal c r
  | .jmp a => addrLegal c a
  | .jz a => addrLegal c a
  | .jn a => addrLegal c a
  | .jeq ra rb a => regLegalOnInternal c ra && regLegalOnInternal c rb && addrLegal c a
  | .jneq ra rb a => regLegalOnInternal c ra && regLegalOnInternal c rb && addrLegal c a
  | .jgt ra rb a => regLegalOnInternal c ra && regLegalOnInternal c rb && addrLegal c a
  | .jlw ra rb a => regLegalOnInternal c ra && regLegalOnInternal c rb && addrLegal c a
  | .read a => addrLegal c a
  | .store a => addrLegal c a
  | .ldi v => immLegal c v
  | .imulMemReg => true
  | .imulRegMem => true
  | .imulRegReg => true

end Sys2Proof
end

