-- ==== Sys2Proof/Decode.lean ====
section
/-! DEFINITION. The instruction table and its decoder, the encoder, and the parameters' default values (R5, R93, R94). -/

namespace Sys2Proof

/-- R93: the default numbering, opcode `0 .. 28` in the order of the spec's table (decision D3, log 5). -/
def defaultOpcodeMap : List Mnemonic :=
  [.add, .sub, .addRegReg, .subRegReg, .addMemReg, .subMemReg, .addRegMem, .subRegMem, .addImmReg, .subImmReg,
   .moveMemReg, .moveRegMem, .moveRegReg, .moveImmReg, .inc, .incReg] ++
  [.jmp, .jz, .jn, .jeq, .jneq, .jgt, .jlw, .read, .store, .ldi, .imulMemReg, .imulRegMem, .imulRegReg]

/-- The default value of every parameter (R5). It stands here, not in Config.lean, because a later repair may change a value here. -/
def defaultConfig : Config where
  w := 32
  memsize := 128
  ngpr := 4
  opcodeMap := defaultOpcodeMap
  jmpMode := .indirect
  imulMode := .fault
  memFill := 0
  resetValue := 0

/-- The `n` of R93: how many operand cells follow the opcode cell (R90, R91). -/
def Mnemonic.operandCount : Mnemonic → Nat
  | .add => 1
  | .sub => 1
  | .addRegReg => 2
  | .subRegReg => 2
  | .addMemReg => 2
  | .subMemReg => 2
  | .addRegMem => 2
  | .subRegMem => 2
  | .addImmReg => 2
  | .subImmReg => 2
  | .moveMemReg => 2
  | .moveRegMem => 2
  | .moveRegReg => 2
  | .moveImmReg => 2
  | .inc => 0
  | .incReg => 1
  | .jmp => 1
  | .jz => 1
  | .jn => 1
  | .jeq => 3
  | .jneq => 3
  | .jgt => 3
  | .jlw => 3
  | .read => 1
  | .store => 1
  | .ldi => 1
  | .imulMemReg => 0
  | .imulRegMem => 0
  | .imulRegReg => 0

/-- R94: the opcode is the whole signed value; outside `0 .. NOPC-1` it is unmatched. -/
def decodeOpcode (map : List Mnemonic) (op : Int) : Option Mnemonic :=
  if 0 ≤ op ∧ op < (NOPC : Int) then map[op.toNat]? else none

/-- Format F1 (R90): one operand cell. -/
def takeOne (k : Int → Instr) : List Int → Option Instr
  | a :: _ => some (k a)
  | [] => none

/-- Format F2 (R90): two operand cells. -/
def takeTwo (k : Int → Int → Instr) : List Int → Option Instr
  | a :: b :: _ => some (k a b)
  | [_] => none
  | [] => none

/-- Format F3 (R90): three operand cells. -/
def takeThree (k : Int → Int → Int → Instr) : List Int → Option Instr
  | a :: b :: c :: _ => some (k a b c)
  | [_, _] => none
  | [_] => none
  | [] => none

/-- The instruction of a mnemonic with the operand cells that follow its opcode cell, operand 1 first (R92, R93). -/
def assemble (m : Mnemonic) (cells : List Int) : Option Instr :=
  match m with
  | .add => takeOne .add cells
  | .sub => takeOne .sub cells
  | .addRegReg => takeTwo .addRegReg cells
  | .subRegReg => takeTwo .subRegReg cells
  | .addMemReg => takeTwo .addMemReg cells
  | .subMemReg => takeTwo .subMemReg cells
  | .addRegMem => takeTwo .addRegMem cells
  | .subRegMem => takeTwo .subRegMem cells
  | .addImmReg => takeTwo .addImmReg cells
  | .subImmReg => takeTwo .subImmReg cells
  | .moveMemReg => takeTwo .moveMemReg cells
  | .moveRegMem => takeTwo .moveRegMem cells
  | .moveRegReg => takeTwo .moveRegReg cells
  | .moveImmReg => takeTwo .moveImmReg cells
  | .inc => some .inc
  | .incReg => takeOne .incReg cells
  | .jmp => takeOne .jmp cells
  | .jz => takeOne .jz cells
  | .jn => takeOne .jn cells
  | .jeq => takeThree .jeq cells
  | .jneq => takeThree .jneq cells
  | .jgt => takeThree .jgt cells
  | .jlw => takeThree .jlw cells
  | .read => takeOne .read cells
  | .store => takeOne .store cells
  | .ldi => takeOne .ldi cells
  | .imulMemReg => some .imulMemReg
  | .imulRegMem => some .imulRegMem
  | .imulRegReg => some .imulRegReg

/-- Why a list of cells is no instruction. -/
inductive Reject
  /-- There is no opcode cell. -/
  | noOpcodeCell
  /-- The opcode cell's value is unmatched (R95). -/
  | unmatchedOpcode (op : Int)
  /-- The list ends before the mnemonic's last operand cell. -/
  | missingOperand (m : Mnemonic)
  deriving DecidableEq, Repr

/-- Decode the first instruction of a run of cells, and the cells after it (R90, R91, R94); total, rejecting by name. -/
def decodeWith (map : List Mnemonic) : List Int → Except Reject (Instr × List Int)
  | [] => .error .noOpcodeCell
  | op :: rest =>
    match decodeOpcode map op with
    | none => .error (.unmatchedOpcode op)
    | some m =>
      match assemble m rest with
      | none => .error (.missingOperand m)
      | some i => .ok (i, rest.drop m.operandCount)

/-- `decodeWith` under the default numbering. -/
def decode (cells : List Int) : Except Reject (Instr × List Int) := decodeWith defaultOpcodeMap cells

/-- The mnemonic of an instruction. -/
def Instr.mnemonic : Instr → Mnemonic
  | .add _ => .add
  | .sub _ => .sub
  | .addRegReg _ _ => .addRegReg
  | .subRegReg _ _ => .subRegReg
  | .addMemReg _ _ => .addMemReg
  | .subMemReg _ _ => .subMemReg
  | .addRegMem _ _ => .addRegMem
  | .subRegMem _ _ => .subRegMem
  | .addImmReg _ _ => .addImmReg
  | .subImmReg _ _ => .subImmReg
  | .moveMemReg _ _ => .moveMemReg
  | .moveRegMem _ _ => .moveRegMem
  | .moveRegReg _ _ => .moveRegReg
  | .moveImmReg _ _ => .moveImmReg
  | .inc => .inc
  | .incReg _ => .incReg
  | .jmp _ => .jmp
  | .jz _ => .jz
  | .jn _ => .jn
  | .jeq _ _ _ => .jeq
  | .jneq _ _ _ => .jneq
  | .jgt _ _ _ => .jgt
  | .jlw _ _ _ => .jlw
  | .read _ => .read
  | .store _ => .store
  | .ldi _ => .ldi
  | .imulMemReg => .imulMemReg
  | .imulRegMem => .imulRegMem
  | .imulRegReg => .imulRegReg

/-- The operand cells of an instruction, in memory order (R92). -/
def Instr.operands : Instr → List Int
  | .add a => [a]
  | .sub a => [a]
  | .addRegReg ra rb => [ra, rb]
  | .subRegReg ra rb => [ra, rb]
  | .addMemReg a r => [a, r]
  | .subMemReg a r => [a, r]
  | .addRegMem r a => [r, a]
  | .subRegMem r a => [r, a]
  | .addImmReg v r => [v, r]
  | .subImmReg v r => [v, r]
  | .moveMemReg a r => [a, r]
  | .moveRegMem r a => [r, a]
  | .moveRegReg ra rb => [ra, rb]
  | .moveImmReg v r => [v, r]
  | .inc => []
  | .incReg r => [r]
  | .jmp a => [a]
  | .jz a => [a]
  | .jn a => [a]
  | .jeq ra rb a => [ra, rb, a]
  | .jneq ra rb a => [ra, rb, a]
  | .jgt ra rb a => [ra, rb, a]
  | .jlw ra rb a => [ra, rb, a]
  | .read a => [a]
  | .store a => [a]
  | .ldi v => [v]
  | .imulMemReg => []
  | .imulRegMem => []
  | .imulRegReg => []

/-- The opcode of a mnemonic: its position in the instruction table (R93). -/
def opcodeOf (map : List Mnemonic) (m : Mnemonic) : Int := (map.idxOf m : Nat)

/-- The cells of an instruction: the opcode cell, then the operand cells (R90). -/
def encodeWith (map : List Mnemonic) (i : Instr) : List Int := opcodeOf map i.mnemonic :: i.operands

/-- `encodeWith` under the default numbering. -/
def encode (i : Instr) : List Int := encodeWith defaultOpcodeMap i

/-- Cell `k` of an instruction whose first `nbits` bits are `w`, bit 0 the least significant bit of the first cell, every higher
bit 0 (the numbering of spec/opcode_table.json, whose cells have the default 32 bits, R100; an instruction is at most four cells, R97). -/
def tableCell (nbits w k : Nat) : Int := wrap 32 ((w % 2 ^ nbits / 2 ^ (32 * k) : Nat) : Int)

/-- The four cells of the longest instruction, laid out from a table word. -/
def tableCells (nbits w : Nat) : List Int :=
  [tableCell nbits w 0, tableCell nbits w 1, tableCell nbits w 2, tableCell nbits w 3]

/-- What the decoder reads from a table word. -/
def decodeTableWord (nbits w : Nat) : Option Instr :=
  match decode (tableCells nbits w) with
  | .ok (i, _) => some i
  | .error _ => none

end Sys2Proof
end

