-- ==== Sys2Proof/Machine/State.lean ====
section
/-! DEFINITION. The state of the machine (R20), the reasons a run ends (R220), and the state after reset (R42). -/

namespace Sys2Proof.Machine

/-- The four fatal conditions of R220, `reason` of `FAULTED(reason)`. A micro-operation that detects one takes it: the run ends in a
NEXT state whose RUN names it (R221, log 9); no step answers `Host.Outcome.fault`. Safe: nothing is lost, the state is there. -/
inductive Fault
  /-- Raised by `MEM.read` and `MEM.std` (and by SELMEM's, unreachably) on an address outside the memory (R66, R222). -/
  | fatalAddressing
  /-- Raised by an `RSEL` transfer when SEL is outside `0 .. NREG-1` (R117, R223). -/
  | registerIndexFault
  /-- Raised by a register transfer on a bus the register is not wired to (R118, R224). -/
  | configurationFault
  /-- Raised by DECODE of a multiply placeholder under `IMUL_MODE = fault` (R209, R225). -/
  | notImplemented
  deriving DecidableEq, Repr

/-- Reasons a step is refused. -/
inductive Refusal
  /-- An instruction without a meaning in this model. No arm of `exec` answers it: every instruction has its meaning. Safe. -/
  | notModelled (mnemonic : String)
  deriving DecidableEq, Repr

/-- The control state RUN (R38, R221). -/
inductive Run
  | running
  | halted
  | faulted (reason : Fault)
  deriving DecidableEq, Repr

/-- FLAGS: the named bits ZERO (index 0) and NEGATIVE (index 1) (R30). -/
structure Flags where
  zero : Bool
  negative : Bool
  deriving DecidableEq, Repr

/-- Main memory as (cell address, cell) pairs in one canonical form (`Memory.wf`). The unit is the whole cell (R62, log 1). -/
abbrev Memory := List (Nat × Int)

/-- What a cell that is not listed holds: the default `MEM_FILL` (R42, log 8). -/
def Memory.unlisted : Int := 0

/-- Canonical form of a memory of `n` cells: cell addresses strictly rising and below `n`, and no entry equal to what an unlisted cell
holds. -/
abbrev Memory.wf (n : Nat) (m : Memory) : Prop :=
  m.Pairwise (fun x y => x.1 < y.1) ∧ ∀ c ∈ m, c.1 < n ∧ c.2 ≠ Memory.unlisted

/-- Memory of `n` cells with the value `v` in every one, in canonical form (R240: reset writes `MEM_FILL` to every cell). -/
def Memory.filled (n : Nat) (v : Int) : Memory :=
  if v = Memory.unlisted then [] else (List.range n).map (fun a => (a, v))

/-- The complete state (R20), and the parameters it runs under. -/
structure State where
  /-- General registers RPG0 to RPG(NGPR-1), in the order of the register file list (R21, R23; log 3). -/
  rpg : List Int
  /-- Stack registers, wired to EXT only (R24). -/
  stkTop : Int
  stkBot : Int
  /-- Program counter (R25). -/
  pc : Int
  /-- Instruction register (R29). -/
  ir : Int
  /-- Flags register (R30). -/
  flags : Flags
  /-- The external bus and the two internal buses: holding latches (R33). -/
  ext : Int
  int1 : Int
  int2 : Int
  /-- ALU slots 0 and 1 (R34). -/
  s0 : Int
  s1 : Int
  /-- Selector latch SEL (R35). -/
  sel : Int
  /-- Main memory's address latch MEM.AL (R36). -/
  memAL : Int
  /-- Status-selector memory: cells 0 and 1, and its own address latch (R37). -/
  selmem0 : Int
  selmem1 : Int
  selAL : Int
  /-- Main memory (R36). -/
  mem : Memory
  /-- Control state (R38). -/
  run : Run
  /-- The parameters, fixed for the machine: no state of the spec's (R43, log 4). -/
  cfg : Config
  deriving DecidableEq, Repr

/-- The reset state of R42 under the given parameters: PC = 0, flags 0, RUN = RUNNING, every memory cell `MEM_FILL`, everything
else `RESET_VALUE` (R240, log 8). -/
def State.resetOf (c : Config) : State where
  rpg := List.replicate c.ngpr c.resetValue
  stkTop := c.resetValue
  stkBot := c.resetValue
  pc := 0
  ir := c.resetValue
  flags := ⟨false, false⟩
  ext := c.resetValue
  int1 := c.resetValue
  int2 := c.resetValue
  s0 := c.resetValue
  s1 := c.resetValue
  sel := c.resetValue
  memAL := c.resetValue
  selmem0 := c.resetValue
  selmem1 := c.resetValue
  selAL := c.resetValue
  mem := Memory.filled c.memsize c.memFill
  run := .running
  cfg := c

/-- The machine right after reset, under the default parameters (R42, R5). -/
def State.reset : State := State.resetOf defaultConfig

end Sys2Proof.Machine
end

