-- ==== Sys2Proof/Machine/Ops.lean ====
section
/-! DEFINITION. The named operations over memory, registers, buses, ALU slots and the two memories (R65 to R67, R111 to R129), taking a
fault (R221), and the outside's reset and load (R240, R246). -/

namespace Sys2Proof.Machine

/-! ### Main memory -/

/-- The bounds of R66 in a memory of `n` cells. -/
def validAddr (n : Nat) (a : Int) : Bool := decide (0 ≤ a ∧ a < (n : Int))

/-- An address of this machine's memory (R66). -/
abbrev State.valid (s : State) (a : Int) : Bool := validAddr s.cfg.memsize a

/-- The value of cell `a` (R64: the whole cell, no side effect). -/
def Memory.read : Memory → Nat → Int
  | [], _ => Memory.unlisted
  | (k, v) :: rest, a => if k = a then v else Memory.read rest a

/-- Put an entry in front, unless it says what an unlisted cell says. -/
def Memory.entry (a : Nat) (v : Int) (rest : Memory) : Memory :=
  if v = Memory.unlisted then rest else (a, v) :: rest

/-- Set cell `a` to `v`, keeping the canonical form. -/
def Memory.write : Memory → Nat → Int → Memory
  | [], a, v => Memory.entry a v []
  | (k, w) :: rest, a, v =>
    if a < k then Memory.entry a v ((k, w) :: rest)
    else if a = k then Memory.entry a v rest
    else (k, w) :: Memory.write rest a v

/-- The cell an address names, for an address already known to be in range. -/
def State.cell (s : State) (a : Int) : Int := Memory.read s.mem a.toNat

/-- The state with the cell an address names set to `v`. -/
def State.setCell (s : State) (a v : Int) : State := { s with mem := Memory.write s.mem a.toNat v }

/-! ### Taking a fault -/

/-- `raise F` (R7, R221): what earlier micro-operations did stays, RUN becomes `FAULTED(F)`, and nothing later happens. There is no
handler, no saved PC and no return (R229, R231): the only way on is `State.resetInput`. -/
def State.raise (f : Fault) (s : State) : State := { s with run := .faulted f }

/-- DECODE of an unmatched opcode (R95, R226): RUN becomes HALTED. -/
def State.halt (s : State) : State := { s with run := .halted }

/-! ### Buses -/

/-- The three shared single-value buses (R33). -/
inductive Bus
  | ext | int1 | int2
  deriving DecidableEq, Repr

/-- `get()`: the last value put (R111). -/
def State.getBus (s : State) : Bus → Int
  | .ext => s.ext
  | .int1 => s.int1
  | .int2 => s.int2

/-- `put(v)`: unconditional overwrite (R111). -/
def State.putBus (s : State) (b : Bus) (v : Int) : State :=
  match b with
  | .ext => { s with ext := v }
  | .int1 => { s with int1 := v }
  | .int2 => { s with int2 := v }

/-! ### Registers -/

/-- The registers that hold an integer (R21, R22): RPG`k`, and the four named ones. -/
inductive Reg
  | rpg (k : Nat)
  | stkTop | stkBot | pc | ir
  deriving DecidableEq, Repr

/-- Whether the machine has the register: RPG`k` when `k < NGPR` (R23). -/
def State.has (s : State) : Reg → Bool
  | .rpg k => decide (k < s.rpg.length)
  | .stkTop => true
  | .stkBot => true
  | .pc => true
  | .ir => true

/-- The stored value of a register. A general register the machine does not have is never named (R21): RPG0 always exists, and an index
resolves to RPG`k` for `k < NGPR` only. -/
def State.getReg (s : State) : Reg → Int
  | .rpg k => s.rpg.getD k 0
  | .stkTop => s.stkTop
  | .stkBot => s.stkBot
  | .pc => s.pc
  | .ir => s.ir

/-- Overwrite a register. None is hardwired and none aliases another (R22). -/
def State.setReg (s : State) (x : Reg) (v : Int) : State :=
  match x with
  | .rpg k => { s with rpg := s.rpg.set k v }
  | .stkTop => { s with stkTop := v }
  | .stkBot => { s with stkBot := v }
  | .pc => { s with pc := v }
  | .ir => { s with ir := v }

/-- An entry of the register file list: a register with an integer value, or FLAGS, which holds named bits instead (R21, R30). -/
inductive FileEntry
  | reg (x : Reg)
  | flags
  deriving DecidableEq, Repr

/-- The fixed, ordered register file list (R21): the `n = NGPR` general registers, then StkTOP, StkBOT, PC, IR, FLAGS. -/
def registerFile (n : Nat) : List FileEntry :=
  (List.range n).map (fun k => .reg (.rpg k)) ++ [.reg .stkTop, .reg .stkBot, .reg .pc, .reg .ir, .flags]

/-- The wiring table for integer transfers (R28; decision D4, log 14). FLAGS has no integer transfer on any bus (R31). -/
def FileEntry.wired : FileEntry → Bus → Bool
  | .reg .stkTop, b => decide (b = .ext)
  | .reg .stkBot, b => decide (b = .ext)
  | .flags, _ => false
  | .reg _, _ => true

/-- `X.rdB` (R114) with the wiring check of R118: the register's value goes onto the bus. -/
def State.readOnto (s : State) (e : FileEntry) (b : Bus) : Except Fault State :=
  match e with
  | .flags => .error .configurationFault
  | .reg x => if e.wired b then .ok (s.putBus b (s.getReg x)) else .error .configurationFault

/-- `X.stB` (R115) with the wiring check of R118: the bus's value goes into the register. -/
def State.storeFrom (s : State) (e : FileEntry) (b : Bus) : Except Fault State :=
  match e with
  | .flags => .error .configurationFault
  | .reg x => if e.wired b then .ok (s.setReg x (s.getBus b)) else .error .configurationFault

/-! ### ALU -/

/-- The two ALU slots (R34). -/
inductive Slot
  | slot0 | slot1
  deriving DecidableEq, Repr

/-- The value of a slot. -/
def State.getSlot (s : State) : Slot → Int
  | .slot0 => s.s0
  | .slot1 => s.s1

/-- Overwrite a slot. -/
def State.setSlot (s : State) (k : Slot) (v : Int) : State :=
  match k with
  | .slot0 => { s with s0 := v }
  | .slot1 => { s with s1 := v }

/-- `ALU.add` (R122): slot 0 plus slot 1, wrapped, into slot 1. -/
def State.aluAdd (s : State) : State := { s with s1 := wrap s.cfg.w (s.s0 + s.s1) }

/-- `ALU.sub` (R123): slot 0 minus slot 1, wrapped, into slot 1. -/
def State.aluSub (s : State) : State := { s with s1 := wrap s.cfg.w (s.s0 - s.s1) }

/-- `ALU.inc` (R124): slot 1 plus 1, wrapped, into slot 1. -/
def State.aluInc (s : State) : State := { s with s1 := wrap s.cfg.w (s.s1 + 1) }

/-! ### Main-memory transfers -/

/-- `MEM.read` (R65): the address on EXT is replaced by the value of its cell. -/
def State.memRead (s : State) : Except Fault State :=
  if validAddr s.cfg.memsize s.ext then .ok { s with ext := s.cell s.ext } else .error .fatalAddressing

/-- `MEM.sta` (R67): the address phase latches any value. -/
def State.memSta (s : State) : State := { s with memAL := s.ext }

/-- `MEM.std` (R67): the data phase checks the latched address and writes EXT into its cell (decision D16, log 18). -/
def State.memStd (s : State) : Except Fault State :=
  if validAddr s.cfg.memsize s.memAL then .ok (s.setCell s.memAL s.ext) else .error .fatalAddressing

/-! ### Status-selector memory -/

/-- The two cells of the status-selector memory (R37). -/
inductive SelCell
  | cell0 | cell1
  deriving DecidableEq, Repr

/-- The cell an address of the status-selector memory names, if there is one (R129). -/
def selCell? (a : Int) : Option SelCell :=
  if a = 0 then some .cell0 else if a = 1 then some .cell1 else none

/-- The value of a cell (`SelRead`, R7). -/
def State.getSelCell (s : State) : SelCell → Int
  | .cell0 => s.selmem0
  | .cell1 => s.selmem1

/-- `SELMEM.st0`, `SELMEM.st1` load EXT through this (R129; decision D12, log 16). -/
def State.setSelCell (s : State) (c : SelCell) (v : Int) : State :=
  match c with
  | .cell0 => { s with selmem0 := v }
  | .cell1 => { s with selmem1 := v }

/-- `SELMEM.read` (R129): the address on EXT is replaced by the value of that cell. -/
def State.selmemRead (s : State) : Except Fault State :=
  match selCell? s.ext with
  | some c => .ok { s with ext := s.getSelCell c }
  | none => .error .fatalAddressing

/-- The generic two-phase store of a Memory on SELMEM, address phase (R67, R129; issued by no sequence, log 17). -/
def State.selmemSta (s : State) : State := { s with selAL := s.ext }

/-- The generic two-phase store of a Memory on SELMEM, data phase (R67, R129; issued by no sequence, log 17). -/
def State.selmemStd (s : State) : Except Fault State :=
  match selCell? s.selAL with
  | some c => .ok (s.setSelCell c s.ext)
  | none => .error .fatalAddressing

/-! ### The outside: reset and load (R138) -/

/-- The reset input (R240, R241): every state element at its reset value, whatever the state was; the parameters stay. -/
def State.resetInput (s : State) : State := State.resetOf s.cfg

/-- Write image values into consecutive cells from address `a` on; none if one is not a value of `w` bits (R246). -/
def Memory.writeImage (w : Nat) (m : Memory) (a : Nat) : List Int → Option Memory
  | [] => some m
  | v :: rest => if InWidth w v then Memory.writeImage w (Memory.write m a v) (a + 1) rest else none

/-- The load interface (R246): image value `i` goes to cell `i`, nothing else changes; an image that is too long or holds a value
out of range is refused, no launch state exists for it (decision D18, log 20). -/
def State.load (s : State) (image : List Int) : Option State :=
  if image.length ≤ s.cfg.memsize then
    match Memory.writeImage s.cfg.w s.mem 0 image with
    | some m => some { s with mem := m }
    | none => none
  else none

/-- The launch state of R247: the reset state with the image loaded. -/
def State.launch (c : Config) (image : List Int) : Option State := (State.resetOf c).load image

end Sys2Proof.Machine
end

