-- ==== Sys2Proof/Machine/Flags.lean ====
section
/-! DEFINITION. The flags: their update law and their two ports (R30, R31, R126, R127). -/

namespace Sys2Proof.Machine

/-- `setflags(r)` (R30): ZERO iff the wrapped result is 0, NEGATIVE iff it is below 0. -/
def flagsOf (r : Int) : Flags where
  zero := decide (r = 0)
  negative := decide (r < 0)

/-- The index of a flag bit: ZERO is 0, NEGATIVE is 1 (R30). -/
inductive FlagBit
  | zero | negative
  deriving DecidableEq, Repr

/-- The named bit. -/
def Flags.bit (f : Flags) : FlagBit → Bool
  | .zero => f.zero
  | .negative => f.negative

/-- A flag bit as a bus value: the integer 0 or 1 (R127). -/
def bitWord (b : Bool) : Int := if b then 1 else 0

/-- `FLAGS.upd` (R126): both bits from the value on INT2 (decision D6). -/
def State.flagsUpd (s : State) : State := { s with flags := flagsOf s.int2 }

/-- `FLAGS.bit(i)` (R127): the bit, as 0 or 1, onto EXT. -/
def State.flagsBit (s : State) (i : FlagBit) : State := { s with ext := bitWord (s.flags.bit i) }

end Sys2Proof.Machine
end

