-- ==== Sys2Proof/Machine/Operands.lean ====
section
/-! DEFINITION. Operands: the selector latch and the selected register (R116, R117, R119), and the operand cell of the instruction
being executed (R132). -/

namespace Sys2Proof.Machine

/-- `SEL.set` (R119): latch the value on EXT, whatever it is. -/
def State.selSet (s : State) : State := { s with sel := s.ext }

/-- R117: the entry of the register file list that an index names, if `0 <= SEL < NREG`. -/
def resolve (c : Config) (i : Int) : Option FileEntry :=
  if 0 ≤ i ∧ i < (c.nreg : Int) then (registerFile c.ngpr)[i.toNat]? else none

/-- `RSEL.rdB` (R116): the index check of R117 first, then the transfer with its wiring check (R228). -/
def State.rselRead (s : State) (b : Bus) : Except Fault State :=
  match resolve s.cfg s.sel with
  | some e => s.readOnto e b
  | none => .error .registerIndexFault

/-- `RSEL.stB` (R116): the index check of R117 first, then the transfer with its wiring check (R228). -/
def State.rselStore (s : State) (b : Bus) : Except Fault State :=
  match resolve s.cfg s.sel with
  | some e => s.storeFrom e b
  | none => .error .registerIndexFault

/-- `MEM.read` of one of the instruction's own operand cells, whose value `v` the decoder has delivered: the bounds check of R66 on the
address on EXT, then `v` replaces it. In a step `v` IS that cell's value, so this is `MEM.read` (log 12). -/
def State.operandRead (s : State) (v : Int) : Except Fault State :=
  if validAddr s.cfg.memsize s.ext then .ok { s with ext := v } else .error .fatalAddressing

end Sys2Proof.Machine
end

