-- ==== Sys2Proof/Machine/Micro.lean ====
section
/-! DEFINITION. The micro-operations as data (R137), what each does, and how the control unit runs a micro-sequence (R110, R221). -/

namespace Sys2Proof.Machine

/-- The micro-operations of R137, with SELMEM's generic store of R129. -/
inductive MicroOp
  /-- `X.rdE`, `X.rd1`, `X.rd2` (R114). -/
  | rd (x : Reg) (b : Bus)
  /-- `X.stE`, `X.st1`, `X.st2` (R115). -/
  | st (x : Reg) (b : Bus)
  /-- `RSEL.rdE`, `RSEL.rd1`, `RSEL.rd2` (R116). -/
  | rselRd (b : Bus)
  /-- `RSEL.stE`, `RSEL.st1`, `RSEL.st2` (R116). -/
  | rselSt (b : Bus)
  /-- `SEL.set` (R119). -/
  | selSet
  /-- `ALU.st1(k)` (R120). -/
  | aluSt1 (k : Slot)
  /-- `ALU.rd1(k)` (R120). -/
  | aluRd1 (k : Slot)
  /-- `ALU.st2(k)` (R120). -/
  | aluSt2 (k : Slot)
  /-- `ALU.rd2(k)` (R120). -/
  | aluRd2 (k : Slot)
  /-- `ALU.add` (R122). -/
  | aluAdd
  /-- `ALU.sub` (R123). -/
  | aluSub
  /-- `ALU.inc` (R124). -/
  | aluInc
  /-- `FLAGS.upd` (R126). -/
  | flagsUpd
  /-- `FLAGS.bit(i)` (R127). -/
  | flagsBit (i : FlagBit)
  /-- `MEM.read` (R65). -/
  | memRead
  /-- `MEM.sta` (R67). -/
  | memSta
  /-- `MEM.std` (R67). -/
  | memStd
  /-- `SELMEM.read` (R129). -/
  | selmemRead
  /-- `SELMEM.st0`, `SELMEM.st1` (R129). -/
  | selmemSt (c : SelCell)
  /-- SELMEM's generic store, address phase (R129; never issued). -/
  | selmemSta
  /-- SELMEM's generic store, data phase (R129; never issued). -/
  | selmemStd
  /-- `MEM.read` of an operand cell of the decoded instruction (R132, log 12). -/
  | operandRead (v : Int)
  deriving DecidableEq, Repr

/-- What one micro-operation does: the next state, or the fault it detects, in which case it changes nothing (R221). -/
def MicroOp.apply (m : MicroOp) (s : State) : Except Fault State :=
  match m with
  | .rd x b => s.readOnto (.reg x) b
  | .st x b => s.storeFrom (.reg x) b
  | .rselRd b => s.rselRead b
  | .rselSt b => s.rselStore b
  | .selSet => .ok s.selSet
  | .aluSt1 k => .ok (s.setSlot k s.int1)
  | .aluRd1 k => .ok { s with int1 := s.getSlot k }
  | .aluSt2 k => .ok (s.setSlot k s.int2)
  | .aluRd2 k => .ok { s with int2 := s.getSlot k }
  | .aluAdd => .ok s.aluAdd
  | .aluSub => .ok s.aluSub
  | .aluInc => .ok s.aluInc
  | .flagsUpd => .ok s.flagsUpd
  | .flagsBit i => .ok (s.flagsBit i)
  | .memRead => s.memRead
  | .memSta => .ok s.memSta
  | .memStd => s.memStd
  | .selmemRead => s.selmemRead
  | .selmemSt c => .ok (s.setSelCell c s.ext)
  | .selmemSta => .ok s.selmemSta
  | .selmemStd => s.selmemStd
  | .operandRead v => s.operandRead v

/-- Run a micro-sequence strictly left to right (R8, R110). The first fault is taken on the state its micro-operation found, and ends
the sequence (R221, R228). -/
def runSeq : List MicroOp → State → State
  | [], s => s
  | m :: rest, s =>
    match m.apply s with
    | .ok s' => runSeq rest s'
    | .error f => s.raise f

/-- `PCINC` (R131). -/
def pcinc : List MicroOp := [.rd .pc .int2, .aluSt2 .slot1, .aluInc, .aluRd2 .slot1, .st .pc .int2]

/-- `OPFETCH` (R132), with the micro-operation that reads the operand cell: `MEM.read` itself, or its decoded value. -/
def opfetch (rd : MicroOp) : List MicroOp := [.rd .pc .ext, rd]

/-- FETCH (R133). -/
def fetchSeq : List MicroOp := [.rd .pc .ext, .memRead, .st .ir .ext]

end Sys2Proof.Machine
end

