-- ==== Sys2Proof/Machine/Arith.lean ====
section
/-! DEFINITION. The twelve arithmetic instructions (R148 to R162): their micro-sequences (decision D5, log 11) and meanings. -/

namespace Sys2Proof.Machine

open MicroOp

/-- The end shared by every arithmetic sequence: the operation, its result onto INT2, the flags from it (R125, R253). -/
def aluResult (op : MicroOp) : List MicroOp := [op, aluRd2 .slot1, flagsUpd]

/-- R150, R151: the datum's cells, double indirect, through IR into slot 1; RPG0 into slot 0; the result into RPG0. -/
def accSeq (op a : MicroOp) : List MicroOp :=
  pcinc ++ opfetch a ++ [memRead, memRead, st .ir .ext, rd (.rpg 0) .int1, aluSt1 .slot0, rd .ir .int2, aluSt2 .slot1] ++
  aluResult op ++ [st (.rpg 0) .int2] ++ pcinc

/-- R152, R153: regA into slot 0, regB into slot 1, the result into regB. -/
def regRegSeq (op a b : MicroOp) : List MicroOp :=
  pcinc ++ opfetch a ++ [selSet, rselRd .int1, aluSt1 .slot0] ++
  pcinc ++ opfetch b ++ [selSet, rselRd .int2, aluSt2 .slot1] ++
  aluResult op ++ [rselSt .int2] ++ pcinc

/-- R154, R155: the memory value through IR into slot 0, the register into slot 1, the result into the register. -/
def memRegSeq (op a r : MicroOp) : List MicroOp :=
  pcinc ++ opfetch a ++ [memRead, st .ir .ext, rd .ir .int1, aluSt1 .slot0] ++
  pcinc ++ opfetch r ++ [selSet, rselRd .int2, aluSt2 .slot1] ++
  aluResult op ++ [rselSt .int2] ++ pcinc

/-- R156, R157: the register into slot 0, the memory value through IR into slot 1; the result through IR back to the cell, whose address
is fetched a second time. -/
def regMemSeq (op r a : MicroOp) : List MicroOp :=
  pcinc ++ opfetch r ++ [selSet, rselRd .int1, aluSt1 .slot0] ++
  pcinc ++ opfetch a ++ [memRead, st .ir .ext, rd .ir .int2, aluSt2 .slot1] ++
  aluResult op ++ [st .ir .int2] ++
  opfetch a ++ [memSta, rd .ir .ext, memStd] ++ pcinc

/-- R158, R159: the immediate through IR into slot 0, the register into slot 1, the result into the register. -/
def immRegSeq (op v r : MicroOp) : List MicroOp :=
  pcinc ++ opfetch v ++ [st .ir .ext, rd .ir .int1, aluSt1 .slot0] ++
  pcinc ++ opfetch r ++ [selSet, rselRd .int2, aluSt2 .slot1] ++
  aluResult op ++ [rselSt .int2] ++ pcinc

/-- R160: RPG0 through slot 1, incremented. -/
def incSeq : List MicroOp := [rd (.rpg 0) .int2, aluSt2 .slot1] ++ aluResult aluInc ++ [st (.rpg 0) .int2] ++ pcinc

/-- R161: the selected register through slot 1, incremented. -/
def incRegSeq (r : MicroOp) : List MicroOp :=
  pcinc ++ opfetch r ++ [selSet, rselRd .int2, aluSt2 .slot1] ++ aluResult aluInc ++ [rselSt .int2] ++ pcinc

/-- `add` (R150): RPG0 <- RPG0 + MEM[MEM[addr]]. -/
def execAdd (addr : AddrOp) (s : State) : Host.Outcome State Fault Refusal :=
  .next (runSeq (accSeq aluAdd (operandRead addr)) s)

/-- `sub` (R151): RPG0 <- RPG0 - MEM[MEM[addr]]. -/
def execSub (addr : AddrOp) (s : State) : Host.Outcome State Fault Refusal :=
  .next (runSeq (accSeq aluSub (operandRead addr)) s)

/-- `addRegReg` (R152): regB <- regA + regB. -/
def execAddRegReg (regA : RegOp) (regB : RegOp) (s : State) : Host.Outcome State Fault Refusal :=
  .next (runSeq (regRegSeq aluAdd (operandRead regA) (operandRead regB)) s)

/-- `subRegReg` (R153): regB <- regA - regB. -/
def execSubRegReg (regA : RegOp) (regB : RegOp) (s : State) : Host.Outcome State Fault Refusal :=
  .next (runSeq (regRegSeq aluSub (operandRead regA) (operandRead regB)) s)

/-- `addMemReg` (R154): reg <- MEM[addr] + reg. -/
def execAddMemReg (addr : AddrOp) (regId : RegOp) (s : State) : Host.Outcome State Fault Refusal :=
  .next (runSeq (memRegSeq aluAdd (operandRead addr) (operandRead regId)) s)

/-- `subMemReg` (R155): reg <- MEM[addr] - reg. -/
def execSubMemReg (addr : AddrOp) (regId : RegOp) (s : State) : Host.Outcome State Fault Refusal :=
  .next (runSeq (memRegSeq aluSub (operandRead addr) (operandRead regId)) s)

/-- `addRegMem` (R156): MEM[addr] <- reg + MEM[addr]. -/
def execAddRegMem (regId : RegOp) (addr : AddrOp) (s : State) : Host.Outcome State Fault Refusal :=
  .next (runSeq (regMemSeq aluAdd (operandRead regId) (operandRead addr)) s)

/-- `subRegMem` (R157): MEM[addr] <- reg - MEM[addr]. -/
def execSubRegMem (regId : RegOp) (addr : AddrOp) (s : State) : Host.Outcome State Fault Refusal :=
  .next (runSeq (regMemSeq aluSub (operandRead regId) (operandRead addr)) s)

/-- `addImmReg` (R158): reg <- imm + reg. -/
def execAddImmReg (imm : ImmOp) (regId : RegOp) (s : State) : Host.Outcome State Fault Refusal :=
  .next (runSeq (immRegSeq aluAdd (operandRead imm) (operandRead regId)) s)

/-- `subImmReg` (R159): reg <- imm - reg. -/
def execSubImmReg (imm : ImmOp) (regId : RegOp) (s : State) : Host.Outcome State Fault Refusal :=
  .next (runSeq (immRegSeq aluSub (operandRead imm) (operandRead regId)) s)

/-- `inc` (R160): RPG0 <- RPG0 + 1. -/
def execInc (s : State) : Host.Outcome State Fault Refusal :=
  .next (runSeq (incSeq) s)

/-- `incReg` (R161): reg <- reg + 1. -/
def execIncReg (regId : RegOp) (s : State) : Host.Outcome State Fault Refusal :=
  .next (runSeq (incRegSeq (operandRead regId)) s)

end Sys2Proof.Machine
end

