-- ==== Sys2Proof/Machine/Branch.lean ====
section
/-! DEFINITION. The seven jumps (R190 to R199): their micro-sequences (decision D5, log 11) and meanings. -/

namespace Sys2Proof.Machine

open MicroOp

/-- The branch tail of R190: target into one selector cell, fall-through into the other, the flag bit as the selector memory's address, the
chosen cell into PC. There is no conditional micro-operation. -/
def branchTail (a : MicroOp) (target fallThrough : SelCell) (bit : FlagBit) : List MicroOp :=
  pcinc ++ opfetch a ++ [selmemSt target] ++
  pcinc ++ [rd .pc .ext, selmemSt fallThrough, flagsBit bit, selmemRead, st .pc .ext]

/-- R191: `jmp` under either `JMP_MODE` (C1, log 6). -/
def jmpSeq (mode : JmpMode) (a : MicroOp) : List MicroOp :=
  match mode with
  | .indirect => pcinc ++ opfetch a ++ [memRead, st .pc .ext]
  | .direct => pcinc ++ opfetch a ++ [st .pc .ext]

/-- R192, R193: a jump on a flag an earlier instruction left. -/
def flagJumpSeq (bit : FlagBit) (a : MicroOp) : List MicroOp := branchTail a .cell1 .cell0 bit

/-- The comparison of R194 to R197: regA - regB through the ALU, flags from it, no register written. -/
def compareSeq (ra rb : MicroOp) : List MicroOp :=
  pcinc ++ opfetch ra ++ [selSet, rselRd .int1, aluSt1 .slot0] ++
  pcinc ++ opfetch rb ++ [selSet, rselRd .int2, aluSt2 .slot1, aluSub, aluRd2 .slot1, flagsUpd]

/-- R194: taken iff the difference is 0. -/
def jeqSeq (ra rb a : MicroOp) : List MicroOp := compareSeq ra rb ++ branchTail a .cell1 .cell0 .zero

/-- R195: taken iff the difference is not 0; the cells are swapped (decision D15, log 16). -/
def jneqSeq (ra rb a : MicroOp) : List MicroOp := compareSeq ra rb ++ branchTail a .cell0 .cell1 .zero

/-- R196: taken iff NEGATIVE is clear; the cells are swapped (decision D15, log 16). -/
def jgtSeq (ra rb a : MicroOp) : List MicroOp := compareSeq ra rb ++ branchTail a .cell0 .cell1 .negative

/-- R197: taken iff NEGATIVE is set. -/
def jlwSeq (ra rb a : MicroOp) : List MicroOp := compareSeq ra rb ++ branchTail a .cell1 .cell0 .negative

/-- `jmp` (R191): PC <- MEM[addr], or addr under `JMP_MODE = direct`. -/
def execJmp (addr : AddrOp) (s : State) : Host.Outcome State Fault Refusal :=
  .next (runSeq (jmpSeq s.cfg.jmpMode (operandRead addr)) s)

/-- `jz` (R192): PC <- addr if ZERO, else the next instruction. -/
def execJz (addr : AddrOp) (s : State) : Host.Outcome State Fault Refusal :=
  .next (runSeq (flagJumpSeq .zero (operandRead addr)) s)

/-- `jn` (R193): PC <- addr if NEGATIVE, else the next instruction. -/
def execJn (addr : AddrOp) (s : State) : Host.Outcome State Fault Refusal :=
  .next (runSeq (flagJumpSeq .negative (operandRead addr)) s)

/-- `jeq` (R194): flags from regA - regB; PC <- addr if it is 0. -/
def execJeq (regA : RegOp) (regB : RegOp) (addr : AddrOp) (s : State) : Host.Outcome State Fault Refusal :=
  .next (runSeq (jeqSeq (operandRead regA) (operandRead regB) (operandRead addr)) s)

/-- `jneq` (R195): flags from regA - regB; PC <- addr if it is not 0. -/
def execJneq (regA : RegOp) (regB : RegOp) (addr : AddrOp) (s : State) : Host.Outcome State Fault Refusal :=
  .next (runSeq (jneqSeq (operandRead regA) (operandRead regB) (operandRead addr)) s)

/-- `jgt` (R196): flags from regA - regB; PC <- addr if it is not negative. -/
def execJgt (regA : RegOp) (regB : RegOp) (addr : AddrOp) (s : State) : Host.Outcome State Fault Refusal :=
  .next (runSeq (jgtSeq (operandRead regA) (operandRead regB) (operandRead addr)) s)

/-- `jlw` (R197): flags from regA - regB; PC <- addr if it is negative. -/
def execJlw (regA : RegOp) (regB : RegOp) (addr : AddrOp) (s : State) : Host.Outcome State Fault Refusal :=
  .next (runSeq (jlwSeq (operandRead regA) (operandRead regB) (operandRead addr)) s)

end Sys2Proof.Machine
end

