-- ==== Sys2Proof/Machine/Imul.lean ====
section
/-! DEFINITION. The three multiply placeholders (R209 to R213) under the three values of `IMUL_MODE`. -/

namespace Sys2Proof.Machine

open MicroOp

/-- R209: the micro-sequence of a multiply placeholder, or none where DECODE raises NotImplemented. -/
def imulSeq : ImulMode → Option (List MicroOp)
  | .fault => none
  | .nopAdvance => some pcinc
  | .nopStay => some []

/-- Run what DECODE selected: a micro-sequence, or the fault NotImplemented (R209, R225). -/
def runSelected (sel : Option (List MicroOp)) (s : State) : State :=
  match sel with
  | some seq => runSeq seq s
  | none => s.raise .notImplemented

/-- `imulMemReg` (R210): what `IMUL_MODE` says; never a multiplication (R209, log 7). -/
def execImulMemReg (s : State) : Host.Outcome State Fault Refusal :=
  .next (runSelected (imulSeq s.cfg.imulMode) s)

/-- `imulRegMem` (R211): what `IMUL_MODE` says; never a multiplication (R209, log 7). -/
def execImulRegMem (s : State) : Host.Outcome State Fault Refusal :=
  .next (runSelected (imulSeq s.cfg.imulMode) s)

/-- `imulRegReg` (R212): what `IMUL_MODE` says; never a multiplication (R209, log 7). -/
def execImulRegReg (s : State) : Host.Outcome State Fault Refusal :=
  .next (runSelected (imulSeq s.cfg.imulMode) s)

end Sys2Proof.Machine
end

