-- ==== Sys2Proof/Machine/Move.lean ====
section
/-! DEFINITION. The seven move, load and store instructions (R169 to R177): their micro-sequences (decision D5, log 11) and meanings. -/

namespace Sys2Proof.Machine

open MicroOp

/-- R170: the datum waits in IR while the register index is fetched. -/
def moveMemRegSeq (a r : MicroOp) : List MicroOp :=
  pcinc ++ opfetch a ++ [memRead, st .ir .ext] ++ pcinc ++ opfetch r ++ [selSet, rd .ir .ext, rselSt .ext] ++ pcinc

/-- R171: the register is read after both operand cells, between the two phases of the store. -/
def moveRegMemSeq (r a : MicroOp) : List MicroOp :=
  pcinc ++ opfetch r ++ [selSet] ++ pcinc ++ opfetch a ++ [memSta, rselRd .ext, memStd] ++ pcinc

/-- R172: regA's value waits in IR while regB's index is fetched. -/
def moveRegRegSeq (a b : MicroOp) : List MicroOp :=
  pcinc ++ opfetch a ++ [selSet, rselRd .ext, st .ir .ext] ++ pcinc ++ opfetch b ++ [selSet, rd .ir .ext, rselSt .ext] ++ pcinc

/-- R173: the immediate waits in IR while the register index is fetched. -/
def moveImmRegSeq (v r : MicroOp) : List MicroOp :=
  pcinc ++ opfetch v ++ [st .ir .ext] ++ pcinc ++ opfetch r ++ [selSet, rd .ir .ext, rselSt .ext] ++ pcinc

/-- R174: double indirect into RPG0. -/
def readSeq (a : MicroOp) : List MicroOp := pcinc ++ opfetch a ++ [memRead, memRead, st (.rpg 0) .ext] ++ pcinc

/-- R175: RPG0 into the cell whose address is in the named cell. -/
def storeSeq (a : MicroOp) : List MicroOp := pcinc ++ opfetch a ++ [memRead, memSta, rd (.rpg 0) .ext, memStd] ++ pcinc

/-- R176: the operand cell into RPG0. -/
def ldiSeq (v : MicroOp) : List MicroOp := pcinc ++ opfetch v ++ [st (.rpg 0) .ext] ++ pcinc

/-- `moveMemReg` (R170): reg <- MEM[addr]. -/
def execMoveMemReg (addr : AddrOp) (regId : RegOp) (s : State) : Host.Outcome State Fault Refusal :=
  .next (runSeq (moveMemRegSeq (operandRead addr) (operandRead regId)) s)

/-- `moveRegMem` (R171): MEM[addr] <- reg. -/
def execMoveRegMem (regId : RegOp) (addr : AddrOp) (s : State) : Host.Outcome State Fault Refusal :=
  .next (runSeq (moveRegMemSeq (operandRead regId) (operandRead addr)) s)

/-- `moveRegReg` (R172): regB <- regA. -/
def execMoveRegReg (regA : RegOp) (regB : RegOp) (s : State) : Host.Outcome State Fault Refusal :=
  .next (runSeq (moveRegRegSeq (operandRead regA) (operandRead regB)) s)

/-- `moveImmReg` (R173): reg <- imm. -/
def execMoveImmReg (imm : ImmOp) (regId : RegOp) (s : State) : Host.Outcome State Fault Refusal :=
  .next (runSeq (moveImmRegSeq (operandRead imm) (operandRead regId)) s)

/-- `read` (R174): RPG0 <- MEM[MEM[addr]]. -/
def execRead (addr : AddrOp) (s : State) : Host.Outcome State Fault Refusal :=
  .next (runSeq (readSeq (operandRead addr)) s)

/-- `store` (R175): MEM[MEM[addr]] <- RPG0. -/
def execStore (addr : AddrOp) (s : State) : Host.Outcome State Fault Refusal :=
  .next (runSeq (storeSeq (operandRead addr)) s)

/-- `ldi` (R176): RPG0 <- imm. -/
def execLdi (imm : ImmOp) (s : State) : Host.Outcome State Fault Refusal :=
  .next (runSeq (ldiSeq (operandRead imm)) s)

end Sys2Proof.Machine
end

