-- ==== Sys2Proof/Machine/Dispatch.lean ====
section
/-! DEFINITION. EXECUTE: one arm per instruction (R130, R133). The state is the one FETCH left; whether RUN is RUNNING is the step's to
check (log 22). -/

namespace Sys2Proof.Machine

def exec (i : Instr) (s : State) : Host.Outcome State Fault Refusal :=
  match i with
  | .add a => Sys2Proof.Machine.execAdd a s
  | .sub a => Sys2Proof.Machine.execSub a s
  | .addRegReg ra rb => Sys2Proof.Machine.execAddRegReg ra rb s
  | .subRegReg ra rb => Sys2Proof.Machine.execSubRegReg ra rb s
  | .addMemReg a r => Sys2Proof.Machine.execAddMemReg a r s
  | .subMemReg a r => Sys2Proof.Machine.execSubMemReg a r s
  | .addRegMem r a => Sys2Proof.Machine.execAddRegMem r a s
  | .subRegMem r a => Sys2Proof.Machine.execSubRegMem r a s
  | .addImmReg v r => Sys2Proof.Machine.execAddImmReg v r s
  | .subImmReg v r => Sys2Proof.Machine.execSubImmReg v r s
  | .moveMemReg a r => Sys2Proof.Machine.execMoveMemReg a r s
  | .moveRegMem r a => Sys2Proof.Machine.execMoveRegMem r a s
  | .moveRegReg ra rb => Sys2Proof.Machine.execMoveRegReg ra rb s
  | .moveImmReg v r => Sys2Proof.Machine.execMoveImmReg v r s
  | .inc => Sys2Proof.Machine.execInc s
  | .incReg r => Sys2Proof.Machine.execIncReg r s
  | .jmp a => Sys2Proof.Machine.execJmp a s
  | .jz a => Sys2Proof.Machine.execJz a s
  | .jn a => Sys2Proof.Machine.execJn a s
  | .jeq ra rb a => Sys2Proof.Machine.execJeq ra rb a s
  | .jneq ra rb a => Sys2Proof.Machine.execJneq ra rb a s
  | .jgt ra rb a => Sys2Proof.Machine.execJgt ra rb a s
  | .jlw ra rb a => Sys2Proof.Machine.execJlw ra rb a s
  | .read a => Sys2Proof.Machine.execRead a s
  | .store a => Sys2Proof.Machine.execStore a s
  | .ldi v => Sys2Proof.Machine.execLdi v s
  | .imulMemReg => Sys2Proof.Machine.execImulMemReg s
  | .imulRegMem => Sys2Proof.Machine.execImulRegMem s
  | .imulRegReg => Sys2Proof.Machine.execImulRegReg s

end Sys2Proof.Machine
end

