-- ==== Sys2Proof/Machine/Fetch.lean ====
section
/-! DEFINITION. FETCH and the cells DECODE reads (R132, R133), and the micro-operation machine: one instruction cycle by micro-sequences
alone (R110, R130). -/

namespace Sys2Proof.Machine

/-- FETCH (R133): `IR <- MemRead(PC)`, or FatalAddressing taken. -/
def State.fetch (s : State) : State := runSeq fetchSeq s

/-- The address `k` cells after the one PC holds, as PCINC forms it (R27, R131). -/
def State.after (s : State) (k : Int) : Int := wrap s.cfg.w (s.pc + k)

/-- Operand cell `k` of the instruction at PC. Where it would lie outside memory there is no cell: 0 stands in its place, and no
micro-operation uses it, since the operand's own fetch faults first (R66, log 13). -/
def State.operandCell (s : State) (k : Int) : Int :=
  if validAddr s.cfg.memsize (s.after k) then s.cell (s.after k) else 0

/-- The opcode in IR and the operand cells after PC, up to the longest instruction (R97). -/
def State.window (s : State) : List Int :=
  [s.ir, s.operandCell 1, s.operandCell 2, s.operandCell 3]

/-- The micro-sequence DECODE selects for a mnemonic, each operand cell read by `MEM.read` as the spec prints it; none where DECODE raises
NotImplemented (R94, R150 to R212). -/
def microSeq (c : Config) : Mnemonic → Option (List MicroOp)
  | .add => some (accSeq .aluAdd .memRead)
  | .sub => some (accSeq .aluSub .memRead)
  | .addRegReg => some (regRegSeq .aluAdd .memRead .memRead)
  | .subRegReg => some (regRegSeq .aluSub .memRead .memRead)
  | .addMemReg => some (memRegSeq .aluAdd .memRead .memRead)
  | .subMemReg => some (memRegSeq .aluSub .memRead .memRead)
  | .addRegMem => some (regMemSeq .aluAdd .memRead .memRead)
  | .subRegMem => some (regMemSeq .aluSub .memRead .memRead)
  | .addImmReg => some (immRegSeq .aluAdd .memRead .memRead)
  | .subImmReg => some (immRegSeq .aluSub .memRead .memRead)
  | .moveMemReg => some (moveMemRegSeq .memRead .memRead)
  | .moveRegMem => some (moveRegMemSeq .memRead .memRead)
  | .moveRegReg => some (moveRegRegSeq .memRead .memRead)
  | .moveImmReg => some (moveImmRegSeq .memRead .memRead)
  | .inc => some incSeq
  | .incReg => some (incRegSeq .memRead)
  | .jmp => some (jmpSeq c.jmpMode .memRead)
  | .jz => some (flagJumpSeq .zero .memRead)
  | .jn => some (flagJumpSeq .negative .memRead)
  | .jeq => some (jeqSeq .memRead .memRead .memRead)
  | .jneq => some (jneqSeq .memRead .memRead .memRead)
  | .jgt => some (jgtSeq .memRead .memRead .memRead)
  | .jlw => some (jlwSeq .memRead .memRead .memRead)
  | .read => some (readSeq .memRead)
  | .store => some (storeSeq .memRead)
  | .ldi => some (ldiSeq .memRead)
  | .imulMemReg => imulSeq c.imulMode
  | .imulRegMem => imulSeq c.imulMode
  | .imulRegReg => imulSeq c.imulMode

/-- DECODE and EXECUTE on micro-sequences alone (R94, R133). -/
def State.decodeExecute (s : State) : State :=
  match decodeOpcode s.cfg.opcodeMap s.ir with
  | some m => runSelected (microSeq s.cfg m) s
  | none => s.halt

/-- One iteration of the control loop on micro-sequences alone (R130): FETCH, DECODE, EXECUTE while RUN is RUNNING, nothing otherwise.
It knows no `Instr`: it is the machine `step` is compared with. -/
def State.cycle (s : State) : State :=
  match s.run with
  | .running =>
    match s.fetch.run with
    | .running => s.fetch.decodeExecute
    | .halted => s.fetch
    | .faulted _ => s.fetch
  | .halted => s
  | .faulted _ => s

/-- Put the four cells of a table word at an address, those that lie in memory. A table cell has 32 bits; a machine of fewer holds it
wrapped (R6). -/
def State.putCells (s : State) (a : Int) : List Int → State
  | [] => s
  | v :: rest => (if validAddr s.cfg.memsize a then s.setCell a (wrap s.cfg.w v) else s).putCells (a + 1) rest

end Sys2Proof.Machine
end

