-- ==== Sys2Proof/Machine/Step.lean ====
section
/-! DEFINITION. The step: one whole instruction cycle (R110, R130). -/

namespace Sys2Proof.Machine

/-- One iteration of the control loop (R130): FETCH; DECODE IR and the operand cells; EXECUTE the instruction. An unmatched opcode halts (R95).
In HALTED and FAULTED nothing happens (R231, log 10). The window always holds a whole instruction, so an unmatched opcode is the only
rejection that arises here. -/
def step (s : State) : Host.Outcome State Fault Refusal :=
  match s.run with
  | .running =>
    match s.fetch.run with
    | .running =>
      match decodeWith s.fetch.cfg.opcodeMap s.fetch.window with
      | .ok (i, _) => exec i s.fetch
      | .error _ => .next s.fetch.halt
    | .halted => .next s.fetch
    | .faulted _ => .next s.fetch
  | .halted => .next s
  | .faulted _ => .next s

/-- `s` about to run the instruction whose first `nbits` bits are `w`: its cells stand at PC, and RUN is RUNNING, without which nothing is
fetched (log 20). -/
def State.withFetchWord (s : State) (nbits w : Nat) : State :=
  { s.putCells s.pc (tableCells nbits w) with run := .running }

end Sys2Proof.Machine
end

