-- ==== Sys2Proof/Safety.lean ====
section
/-! DEFINITION. What claims about runs are stated in: the invariant, the visible part of a state, a run without a fatal abort, and the
ordering discipline of a micro-sequence (R41, R251 to R253). -/

namespace Sys2Proof.Machine

/-- Every value the machine holds: registers, buses, slots, latches, selector cells, memory cells. -/
def State.words (s : State) : List Int :=
  s.rpg ++ [s.stkTop, s.stkBot, s.pc, s.ir, s.ext, s.int1, s.int2, s.s0, s.s1, s.sel, s.memAL, s.selmem0, s.selmem1, s.selAL] ++
  s.mem.map (·.2)

/-- The invariant: memory in canonical form, legal parameters (R5), as many general registers as NGPR says (R23), every value in the range
of `W` bits (R6), and never both flags at once (R30). -/
def State.Inv (s : State) : Prop :=
  Memory.wf s.cfg.memsize s.mem ∧ s.cfg.wf ∧ s.rpg.length = s.cfg.ngpr ∧ (∀ v ∈ s.words, InWidth s.cfg.w v) ∧
  ¬(s.flags.zero = true ∧ s.flags.negative = true)

/-- No fatal condition has ended the run (R221): RUNNING, or HALTED by the program itself (R226). -/
def State.Unfaulted (s : State) : Prop := s.run = .running ∨ s.run = .halted

/-- A state with everything hidden blanked (R41): buses, slots, latches, selector cells, and IR, which every FETCH overwrites before
anything reads it (R251). Two states agree on what a program can see when their visible parts are equal. -/
def State.visible (s : State) : State :=
  { s with ir := 0, ext := 0, int1 := 0, int2 := 0, s0 := 0, s1 := 0, sel := 0, memAL := 0,
           selmem0 := 0, selmem1 := 0, selAL := 0 }

/-- The hidden elements R251 walks over, and SELMEM's own latch. -/
inductive Hidden
  | bus (b : Bus)
  | slot (k : Slot)
  | sel
  | memAL
  | selCell (c : SelCell)
  | selAL
  deriving DecidableEq, Repr

/-- The hidden elements a micro-operation reads (R137 column "gets", with the additions of R251). -/
def MicroOp.gets : MicroOp → List Hidden
  | .rd _ _ => []
  | .st _ b => [.bus b]
  | .rselRd _ => [.sel]
  | .rselSt b => [.sel, .bus b]
  | .selSet => [.bus .ext]
  | .aluSt1 _ => [.bus .int1]
  | .aluRd1 k => [.slot k]
  | .aluSt2 _ => [.bus .int2]
  | .aluRd2 k => [.slot k]
  | .aluAdd => [.slot .slot0, .slot .slot1]
  | .aluSub => [.slot .slot0, .slot .slot1]
  | .aluInc => [.slot .slot1]
  | .flagsUpd => [.bus .int2]
  | .flagsBit _ => []
  | .memRead => [.bus .ext]
  | .memSta => [.bus .ext]
  | .memStd => [.memAL, .bus .ext]
  | .selmemRead => [.bus .ext, .selCell .cell0, .selCell .cell1]
  | .selmemSt _ => [.bus .ext]
  | .selmemSta => [.bus .ext]
  | .selmemStd => [.selAL, .bus .ext]
  | .operandRead _ => [.bus .ext]

/-- The hidden elements a micro-operation writes (R137). -/
def MicroOp.makes : MicroOp → List Hidden
  | .rd _ b => [.bus b]
  | .st _ _ => []
  | .rselRd b => [.bus b]
  | .rselSt _ => []
  | .selSet => [.sel]
  | .aluSt1 k => [.slot k]
  | .aluRd1 _ => [.bus .int1]
  | .aluSt2 k => [.slot k]
  | .aluRd2 _ => [.bus .int2]
  | .aluAdd => [.slot .slot1]
  | .aluSub => [.slot .slot1]
  | .aluInc => [.slot .slot1]
  | .flagsUpd => []
  | .flagsBit _ => [.bus .ext]
  | .memRead => [.bus .ext]
  | .memSta => [.memAL]
  | .memStd => []
  | .selmemRead => [.bus .ext]
  | .selmemSt c => [.selCell c]
  | .selmemSta => [.selAL]
  | .selmemStd => []
  | .operandRead _ => [.bus .ext]

/-- R251: walked left to right from the elements already written in this instruction cycle, every element is written before it is read. -/
def fresh (written : List Hidden) : List MicroOp → Bool
  | [] => true
  | m :: rest => m.gets.all (fun h => decide (h ∈ written)) && fresh (m.makes ++ written) rest

/-- R252: `MEM.std` stands exactly one register-to-EXT transfer after its `MEM.sta`, and nowhere else. -/
def storePhases : List MicroOp → Bool
  | [] => true
  | .memSta :: .rd _ .ext :: .memStd :: rest => storePhases rest
  | .memSta :: .rselRd .ext :: .memStd :: rest => storePhases rest
  | .memSta :: _ => false
  | .memStd :: _ => false
  | _ :: rest => storePhases rest

/-- R253: an ALU operation follows the load of slot 1 at once, and its result leaves over INT2 at once. -/
def aluLoads : List MicroOp → Bool
  | .aluSt2 .slot1 :: .aluAdd :: .aluRd2 .slot1 :: rest => aluLoads rest
  | .aluSt2 .slot1 :: .aluSub :: .aluRd2 .slot1 :: rest => aluLoads rest
  | .aluSt2 .slot1 :: .aluInc :: .aluRd2 .slot1 :: rest => aluLoads rest
  | .aluAdd :: _ => false
  | .aluSub :: _ => false
  | .aluInc :: _ => false
  | _ :: rest => aluLoads rest
  | [] => true

end Sys2Proof.Machine
end

