-- ==== Sys2Proof/Certificates/Slice0/Obligations.lean ====
section
/-! DEFINITION. The statements for the provers. Where one rests on a decision the spec marks as its own ([decision: D<n>]) or on a choice
of this model, its docstring names it; the leftovers of buses, slots, latches and IR always rest on D5 (log 11). -/

namespace Sys2Proof.Claims

open Sys2Proof.Machine

/-- The state after the PCINC and OPFETCH that brought operand `k`, whose value is `v`: PC, INT2 and S1 hold `p + k`, EXT the operand. -/
def atOperand (s : State) (k v : Int) : State := { s with pc := s.after k, int2 := s.after k, s1 := s.after k, ext := v }

/-- The closing PCINC of an instruction that is not a jump. -/
def closed (s : State) : State := { s with pc := s.after 1, int2 := s.after 1, s1 := s.after 1 }

/-- `r` is the value of `w` bits that the integer `v` wraps to (R6): in range, and congruent to `v` modulo `2^w`. -/
def WrapsTo (w : Nat) (v r : Int) : Prop := InWidth w r ∧ ((2 ^ w : Nat) : Int) ∣ r - v

/-- The operand value `i` selects the register `x`, and `x` is wired to the bus `b`. -/
def Selects (s : State) (b : Bus) (i : Int) (x : Reg) : Prop := resolve s.cfg i = some (.reg x) ∧ (FileEntry.reg x).wired b = true

/-- The fault a register operand raises on a bus, if any: the index check first, then the wiring check. -/
def regFault (c : Config) (b : Bus) (i : Int) : Option Fault :=
  match resolve c i with
  | none => some .registerIndexFault
  | some e => if e.wired b then none else some .configurationFault

/-- What a jump on a condition leaves: the chosen address in PC and EXT, target and fall-through in the two selector cells. -/
def jumped (s : State) (taken : Bool) (target fallThrough cell0 cell1 : Int) : State :=
  let chosen := if taken then target else fallThrough
  { s with pc := chosen, ext := chosen, int2 := fallThrough, s1 := fallThrough, selmem0 := cell0, selmem1 := cell1 }

/-- What the comparison of a compare-and-jump leaves before the jump: the flags of the difference, slot 0, INT1, SEL. -/
def compared (s : State) (va d regB : Int) : State := { s with int1 := va, s0 := va, sel := regB, flags := flagsOf d }

/-- The registers that an index names: one, or none where it names FLAGS or nothing. -/
def named (c : Config) (i : Int) : List Reg :=
  match resolve c i with
  | some (.reg x) => [x]
  | some .flags => []
  | none => []

/-- The frame common to every instruction: registers outside `writes` keep their value, every memory cell other than `stored` reads as
before, SELMEM's own latch and the parameters are untouched. -/
def Frame (s t : State) (writes : List Reg) (stored : Option Nat) : Prop :=
  (∀ x, x ∉ writes → t.getReg x = s.getReg x) ∧
  (∀ a, some a ≠ stored → Memory.read t.mem a = Memory.read s.mem a) ∧
  t.selAL = s.selAL ∧ t.cfg = s.cfg

/-- The selector cells and the store's address latch keep their values. -/
def LatchesKept (s t : State) : Prop := t.selmem0 = s.selmem0 ∧ t.selmem1 = s.selmem1 ∧ t.memAL = s.memAL

/-- The seven instructions of the move family. -/
def isMoveFamily : Instr → Bool
  | .moveMemReg _ _ | .moveRegMem _ _ | .moveRegReg _ _ | .moveImmReg _ _ | .read _ | .store _ | .ldi _ => true
  | _ => false

/-- The four `move` instructions. -/
def isMove : Instr → Bool
  | .moveMemReg _ _ | .moveRegMem _ _ | .moveRegReg _ _ | .moveImmReg _ _ => true
  | _ => false

/-- The four instructions that write main memory. -/
def storesToMemory : Instr → Bool
  | .moveRegMem _ _ | .store _ | .addRegMem _ _ | .subRegMem _ _ => true
  | _ => false

/-- The four compare-and-jump instructions. -/
def isCompare : Instr → Bool
  | .jeq _ _ _ | .jneq _ _ _ | .jgt _ _ _ | .jlw _ _ _ => true
  | _ => false

/-- The seven jumps. -/
def isJump (i : Instr) : Bool :=
  isCompare i || match i with
  | .jmp _ | .jz _ | .jn _ => true
  | _ => false

/-- The three multiply placeholders. -/
def isImul : Instr → Bool
  | .imulMemReg | .imulRegMem | .imulRegReg => true
  | _ => false

/-- The sixteen instructions that write the flags: all but the moves, the three flag-free jumps and the placeholders. -/
def writesFlags (i : Instr) : Bool := !isMoveFamily i && !isImul i && (isCompare i || !isJump i)

/-- The destination register operand of an instruction that has one. -/
def destination (c : Config) : Instr → List Reg
  | .addRegReg _ r | .subRegReg _ r | .addMemReg _ r | .subMemReg _ r | .addImmReg _ r | .subImmReg _ r
  | .moveMemReg _ r | .moveRegReg _ r | .moveImmReg _ r | .incReg r => named c r
  | _ => []

end Sys2Proof.Claims

open Sys2Proof Sys2Proof.Machine Sys2Proof.Claims

/-! ### Reset and launch -/

/-- R42, R240: what reset leaves, under any parameters and from any state. Every value but RUN rests on decision D10 (log 8). -/
def Obligations.ResetValues : Prop :=
  ∀ s : State,
    s.resetInput.run = .running ∧ s.resetInput.pc = 0 ∧ s.resetInput.flags = ⟨false, false⟩ ∧ s.resetInput.cfg = s.cfg ∧
    s.resetInput.rpg = List.replicate s.cfg.ngpr s.cfg.resetValue ∧
    (∀ x, x ≠ Reg.pc → s.resetInput.has x = true → s.resetInput.getReg x = s.cfg.resetValue) ∧
    (∀ b, s.resetInput.getBus b = s.cfg.resetValue) ∧ (∀ k, s.resetInput.getSlot k = s.cfg.resetValue) ∧
    (∀ c, s.resetInput.getSelCell c = s.cfg.resetValue) ∧ s.resetInput.sel = s.cfg.resetValue ∧
    s.resetInput.memAL = s.cfg.resetValue ∧ s.resetInput.selAL = s.cfg.resetValue ∧
    ∀ a, a < s.cfg.memsize → Memory.read s.resetInput.mem a = s.cfg.memFill

/-- The invariant holds right after reset. -/
def Obligations.ResetMeetsInvariant : Prop := State.reset.Inv

/-- R246, R247: an image that fits, of values in range, launches with image value `i` in cell `i`, MEM_FILL in the cells past it, and
everything else as reset leaves it; any other image launches nothing (the refusal is decision D18, log 20). -/
def Obligations.LoadPlacesImage : Prop :=
  ∀ (c : Config) (image : List Int),
    (image.length ≤ c.memsize ∧ (∀ v ∈ image, InWidth c.w v) →
      ∃ s, State.launch c image = some s ∧ s = { State.resetOf c with mem := s.mem } ∧ Memory.wf c.memsize s.mem ∧
        (∀ (i : Nat) (h : i < image.length), Memory.read s.mem i = image[i]) ∧
        ∀ i, image.length ≤ i → i < c.memsize → Memory.read s.mem i = c.memFill) ∧
    (c.memsize < image.length ∨ (∃ v ∈ image, ¬InWidth c.w v) → State.launch c image = none)

/-! ### Values and the register file -/

/-- R6: under every width, wrapping gives the one value of that width that is congruent to the integer modulo `2^w`, and a value is its own
wrapping. -/
def Obligations.WrapGivesTheValueInRange : Prop :=
  ∀ (w : Nat) (v : Int), 0 < w →
    WrapsTo w v (wrap w v) ∧ (∀ r, WrapsTo w v r → r = wrap w v) ∧ (InWidth w v → wrap w v = v)

/-- R21, R117: under every NGPR the register file list is RPG0 to RPG(NGPR-1), then StkTOP, StkBOT, PC, IR, FLAGS at NGPR to NGPR+4, and an index
outside `0 .. NREG-1` names nothing. The default NGPR = 4 is decision D2 (log 3). -/
def Obligations.RegisterFileOrder : Prop :=
  ∀ (c : Config) (i : Int),
    (∀ k : Nat, k < c.ngpr → i = k → resolve c i = some (.reg (.rpg k))) ∧
    (i = c.ngpr → resolve c i = some (.reg .stkTop)) ∧ (i = (c.ngpr : Int) + 1 → resolve c i = some (.reg .stkBot)) ∧
    (i = (c.ngpr : Int) + 2 → resolve c i = some (.reg .pc)) ∧ (i = (c.ngpr : Int) + 3 → resolve c i = some (.reg .ir)) ∧
    (i = (c.ngpr : Int) + 4 → resolve c i = some .flags) ∧
    (i < 0 ∨ (c.ngpr : Int) + 5 ≤ i → resolve c i = none)

/-! ### Micro-operations -/

/-- R131: PCINC is exactly these five micro-operations; it adds 1 to PC, leaves `INT2 = S1 = PC`, and changes nothing else. -/
def Obligations.PcincAdvancesPc : Prop :=
  pcinc = [.rd .pc .int2, .aluSt2 .slot1, .aluInc, .aluRd2 .slot1, .st .pc .int2] ∧
  ∀ s : State, runSeq pcinc s = { s with pc := s.after 1, int2 := s.after 1, s1 := s.after 1 }

/-- R133, the FETCH part, and the halt of R94: PC onto EXT, the cell into EXT and IR; FatalAddressing if PC is out of range, with the address
left on EXT. -/
def Obligations.FetchLoadsIr : Prop :=
  ∀ s : State,
    (s.valid s.pc = true → s.fetch = { s with ext := s.cell s.pc, ir := s.cell s.pc }) ∧
    (s.valid s.pc = false → s.fetch = { s with ext := s.pc, run := .faulted .fatalAddressing })

/-- R114, R115: a transfer of a register wired to the bus copies it onto the bus, or the bus into it, and changes nothing else. -/
def Obligations.RegisterTransfersCopy : Prop :=
  ∀ (s : State) (x : Reg), s.has x = true →
    (MicroOp.rd x .ext).apply s = .ok { s with ext := s.getReg x } ∧
    ((FileEntry.reg x).wired .int1 = true → (MicroOp.rd x .int1).apply s = .ok { s with int1 := s.getReg x }) ∧
    ((FileEntry.reg x).wired .int2 = true → (MicroOp.rd x .int2).apply s = .ok { s with int2 := s.getReg x }) ∧
    ∀ b, (FileEntry.reg x).wired b = true →
      ∃ t, (MicroOp.st x b).apply s = .ok t ∧ t.getReg x = s.getBus b ∧ (∀ y, y ≠ x → t.getReg y = s.getReg y) ∧
        t.rpg.length = s.rpg.length ∧
        ∃ l v4 v5 v6 v7, t = { s with rpg := l, stkTop := v4, stkBot := v5, pc := v6, ir := v7 }

/-- R120: the eight ALU transfers; either pair takes either slot, and only the destination changes. -/
def Obligations.AluTransfersCopy : Prop :=
  ∀ s : State,
    (MicroOp.aluSt1 .slot0).apply s = .ok { s with s0 := s.int1 } ∧ (MicroOp.aluSt1 .slot1).apply s = .ok { s with s1 := s.int1 } ∧
    (MicroOp.aluRd1 .slot0).apply s = .ok { s with int1 := s.s0 } ∧ (MicroOp.aluRd1 .slot1).apply s = .ok { s with int1 := s.s1 } ∧
    (MicroOp.aluSt2 .slot0).apply s = .ok { s with s0 := s.int2 } ∧ (MicroOp.aluSt2 .slot1).apply s = .ok { s with s1 := s.int2 } ∧
    (MicroOp.aluRd2 .slot0).apply s = .ok { s with int2 := s.s0 } ∧ (MicroOp.aluRd2 .slot1).apply s = .ok { s with int2 := s.s1 }

/-- R122, R123, R124: the three ALU operations leave in S1 the value that the integer sum, difference, successor wraps to; only S1 changes. -/
def Obligations.AluComputesWrapped : Prop :=
  ∀ s : State, 0 < s.cfg.w →
    (∃ r, MicroOp.aluAdd.apply s = .ok { s with s1 := r } ∧ WrapsTo s.cfg.w (s.s0 + s.s1) r) ∧
    (∃ r, MicroOp.aluSub.apply s = .ok { s with s1 := r } ∧ WrapsTo s.cfg.w (s.s0 - s.s1) r) ∧
    ∃ r, MicroOp.aluInc.apply s = .ok { s with s1 := r } ∧ WrapsTo s.cfg.w (s.s1 + 1) r

/-- R30: the update law of the flags, and that ZERO and NEGATIVE never hold together after it. -/
def Obligations.FlagsLaw : Prop :=
  ∀ r : Int,
    ((flagsOf r).zero = true ↔ r = 0) ∧ ((flagsOf r).negative = true ↔ r < 0) ∧
    ¬((flagsOf r).zero = true ∧ (flagsOf r).negative = true)

/-- R65 with the bounds of R66: a read replaces the address on EXT by the cell's value and changes nothing else; a second read indirects. -/
def Obligations.MemReadReplacesAddress : Prop :=
  ∀ s : State,
    (0 ≤ s.ext ∧ s.ext < s.cfg.memsize → MicroOp.memRead.apply s = .ok { s with ext := Memory.read s.mem s.ext.toNat }) ∧
    (s.ext < 0 ∨ (s.cfg.memsize : Int) ≤ s.ext → MicroOp.memRead.apply s = .error .fatalAddressing) ∧
    (s.valid s.ext = true → s.valid (s.cell s.ext) = true →
      runSeq [.memRead, .memRead] s = { s with ext := s.cell (s.cell s.ext) })

/-- R67, R71: a store is two phases; the first latches any value of EXT, the second checks the latch and writes EXT into the latched cell, which then
reads back while every other cell reads as before.
That the check stands in the second phase is decision D16 (log 18). -/
def Obligations.StoreIsTwoPhase : Prop :=
  ∀ s : State,
    MicroOp.memSta.apply s = .ok { s with memAL := s.ext } ∧
    (0 ≤ s.memAL ∧ s.memAL < s.cfg.memsize →
      ∃ m, MicroOp.memStd.apply s = .ok { s with mem := m } ∧
        (Memory.wf s.cfg.memsize s.mem → Memory.wf s.cfg.memsize m ∧
          ∀ a, Memory.read m a = if a = s.memAL.toNat then s.ext else Memory.read s.mem a)) ∧
    (s.memAL < 0 ∨ (s.cfg.memsize : Int) ≤ s.memAL → MicroOp.memStd.apply s = .error .fatalAddressing)

/-- R116 to R118: a selected transfer on an index outside the list, or on a register not wired to the bus, raises; every other one copies.
The index fault is decision D13, the wiring table D4 (log 14, 15). -/
def Obligations.SelectedTransferChecks : Prop :=
  ∀ (s : State) (b : Bus),
    let n : Int := s.cfg.ngpr
    let raises (f : Fault) := (MicroOp.rselRd b).apply s = .error f ∧ (MicroOp.rselSt b).apply s = .error f
    let copies (x : Reg) :=
      (MicroOp.rselRd b).apply s = .ok (s.putBus b (s.getReg x)) ∧ (MicroOp.rselSt b).apply s = .ok (s.setReg x (s.getBus b))
    (s.sel < 0 ∨ n + 5 ≤ s.sel → raises .registerIndexFault) ∧
    (s.sel = n + 4 ∨ (s.sel = n ∨ s.sel = n + 1) ∧ b ≠ .ext → raises .configurationFault) ∧
    (∀ k : Nat, k < s.cfg.ngpr → s.sel = k → copies (.rpg k)) ∧
    (b = .ext → (s.sel = n → copies .stkTop) ∧ (s.sel = n + 1 → copies .stkBot)) ∧
    (s.sel = n + 2 → copies .pc) ∧ (s.sel = n + 3 → copies .ir)

/-- R119, R126, R127, R129: the selector latch, the two ports of the flags, and the status-selector memory with its generic store. That the
flags sample INT2 is decision D6, that SEL samples EXT D7, the two write ports D12 (log 16, 17, 19). -/
def Obligations.FlagAndSelectorPorts : Prop :=
  ∀ s : State,
    MicroOp.selSet.apply s = .ok { s with sel := s.ext } ∧
    (∃ f : Flags, MicroOp.flagsUpd.apply s = .ok { s with flags := f } ∧
      (f.zero = true ↔ s.int2 = 0) ∧ (f.negative = true ↔ s.int2 < 0)) ∧
    (MicroOp.flagsBit .zero).apply s = .ok { s with ext := if s.flags.zero then 1 else 0 } ∧
    (MicroOp.flagsBit .negative).apply s = .ok { s with ext := if s.flags.negative then 1 else 0 } ∧
    (MicroOp.selmemSt .cell0).apply s = .ok { s with selmem0 := s.ext } ∧
    (MicroOp.selmemSt .cell1).apply s = .ok { s with selmem1 := s.ext } ∧
    (s.ext = 0 → MicroOp.selmemRead.apply s = .ok { s with ext := s.selmem0 }) ∧
    (s.ext = 1 → MicroOp.selmemRead.apply s = .ok { s with ext := s.selmem1 }) ∧
    (s.ext < 0 ∨ 2 ≤ s.ext → MicroOp.selmemRead.apply s = .error .fatalAddressing) ∧
    MicroOp.selmemSta.apply s = .ok { s with selAL := s.ext } ∧
    (s.selAL = 0 → MicroOp.selmemStd.apply s = .ok { s with selmem0 := s.ext }) ∧
    (s.selAL = 1 → MicroOp.selmemStd.apply s = .ok { s with selmem1 := s.ext }) ∧
    (s.selAL < 0 ∨ 2 ≤ s.selAL → MicroOp.selmemStd.apply s = .error .fatalAddressing)

/-- R251 to R253: under every value of the parameters, every micro-sequence, walked after FETCH, writes each bus, slot, latch and selector cell
before it reads it, puts exactly one register-to-EXT transfer between the phases of a store, and runs an ALU operation right after the load of slot 1
and right before its result leaves. The sequences are decision D5's (log 11). -/
def Obligations.SequencesKeepTheDiscipline : Prop :=
  ∀ (c : Config) (m : Mnemonic) (seq : List MicroOp), microSeq c m = some seq →
    fresh [] (fetchSeq ++ seq) = true ∧ storePhases seq = true ∧ aluLoads seq = true

/-- R112 and R221: one micro-operation changes at most one of the three buses, and no micro-operation changes RUN or the parameters. -/
def Obligations.OneBusPerMicroOp : Prop :=
  ∀ (m : MicroOp) (s t : State), m.apply s = .ok t →
    (∃ b, ∀ c, c ≠ b → t.getBus c = s.getBus c) ∧ t.run = s.run ∧ t.cfg = s.cfg

/-! ### Decoding and the control loop -/

/-- Decoding gives back every encoded instruction, under every numbering that is a bijection, whatever cells follow it: no operand
value is dropped or changed, and well-formedness of operands (R92) is not needed. -/
def Obligations.DecodeOfEncode : Prop :=
  ∀ (c : Config) (i : Instr) (rest : List Int), c.tableWf →
    decodeWith c.opcodeMap (encodeWith c.opcodeMap i ++ rest) = .ok (i, rest)

/-- Every run of cells that decodes is the encoding of what it decodes to, followed by the rest; what does not decode is empty, starts with an
unmatched opcode, or ends before its last operand. -/
def Obligations.EncodeOfDecode : Prop :=
  ∀ (c : Config) (cells : List Int), c.tableWf →
    match decodeWith c.opcodeMap cells with
    | .ok (i, rest) => encodeWith c.opcodeMap i ++ rest = cells
    | .error .noOpcodeCell => cells = []
    | .error (.unmatchedOpcode op) => cells.head? = some op ∧ (op < 0 ∨ 29 ≤ op)
    | .error (.missingOperand m) => cells.head? = some (opcodeOf c.opcodeMap m) ∧ cells.length ≤ m.operandCount

/-- Words written out from R93's default numbering (decision D3, log 5) decode to the instructions they stand for, and values outside 0..28 to
nothing. -/
def Obligations.TableWordsDecode : Prop :=
  decode [0, 20] = .ok (.add 20, []) ∧ decode [3, 1, 2, 255] = .ok (.subRegReg 1 2, [255]) ∧
  decode [6, 1, 20] = .ok (.addRegMem 1 20, []) ∧ decode [13, -9, 3] = .ok (.moveImmReg (-9) 3, []) ∧
  decode [14] = .ok (.inc, []) ∧ decode [17, 40] = .ok (.jz 40, []) ∧ decode [22, 0, 1, 50] = .ok (.jlw 0 1 50, []) ∧
  decode [24, 5] = .ok (.store 5, []) ∧ decode [28] = .ok (.imulRegReg, []) ∧
  decode [29] = .error (.unmatchedOpcode 29) ∧ decode [255] = .error (.unmatchedOpcode 255) ∧
  decode [-1] = .error (.unmatchedOpcode (-1))

/-- R130: in RUNNING, with PC in range and the cells at PC decoding to `i`, a step is exactly FETCH and then `exec i`. The window is the opcode
cell and the cells after it, which are memory's own wherever they lie in memory. -/
def Obligations.StepRunsDecoded : Prop :=
  ∀ (s : State) (i : Instr) (rest : List Int), s.run = .running → s.valid s.pc = true →
    (decodeWith s.cfg.opcodeMap [s.cell s.pc, s.operandCell 1, s.operandCell 2, s.operandCell 3] = .ok (i, rest) →
      step s = exec i { s with ext := s.cell s.pc, ir := s.cell s.pc }) ∧
    ∀ k, s.valid (s.after k) = true → s.operandCell k = Memory.read s.mem (s.after k).toNat

/-- R95, R226: fetching an opcode cell outside 0..28 halts: RUN is HALTED, IR and EXT hold the value, PC still holds `p`, nothing else changes.
It is the only way a step halts: no matched opcode and no fault does (the instruction table being a bijection, R5). -/
def Obligations.UnmatchedOpcodeHalts : Prop :=
  ∀ s : State, s.run = .running →
    (s.valid s.pc = true → s.cell s.pc < 0 ∨ 29 ≤ s.cell s.pc →
      step s = .next { s with ext := s.cell s.pc, ir := s.cell s.pc, run := .halted }) ∧
    (s.cfg.tableWf → ∀ t, step s = .next t → t.run = .halted →
      s.valid s.pc = true ∧ (s.cell s.pc < 0 ∨ 29 ≤ s.cell s.pc))

/-- R66, R222: a FETCH with PC out of range ends the run in FAULTED(FatalAddressing), the address left on EXT. -/
def Obligations.FetchOutOfRangeFaults : Prop :=
  ∀ s : State, s.run = .running → s.pc < 0 ∨ (s.cfg.memsize : Int) ≤ s.pc →
    step s = .next { s with ext := s.pc, run := .faulted .fatalAddressing }

/-- R231: HALTED and FAULTED are terminal: no number of steps changes anything (decision D21; that the step is the identity there, not a
stop, is the model's choice, log 10), and the reset input leaves them. -/
def Obligations.TerminalStatesStay : Prop :=
  ∀ (s : State) (k : Nat), s.run ≠ .running → Host.Core.run Sys2Proof.core k s = .next s ∧ s.resetInput.run = .running

/-- The two levels of R9 agree: a step, whose instruction carries its decoded operands, is one iteration of the control loop on the printed
micro-sequences, which fetch every operand from memory (log 12, 13). In particular every step answers a next state. -/
def Obligations.StepIsMicroSequenceCycle : Prop := ∀ s : State, step s = .next s.cycle

/-- The step keeps the invariant: canonical memory, legal parameters, NGPR general registers, every value in the range of `W` bits (R6, R148),
never both flags; and it keeps the parameters (R43). -/
def Obligations.StepKeepsInvariant : Prop :=
  ∀ s t : State, s.Inv → step s = .next t → t.Inv ∧ t.cfg = s.cfg

/-- R41, R251: nothing hidden matters. Two states that agree on what a program can see, whatever their buses, slots, latches, selector cells
and IR hold, step to states that agree on it. -/
def Obligations.HiddenStateNeverInfluences : Prop :=
  ∀ s t s' : State, s.visible = t.visible → step s = .next s' → ∃ t', step t = .next t' ∧ s'.visible = t'.visible

/-! ### Arithmetic: results, completing wherever the operands can be read -/

/-- R150, R151: RPG0 <- RPG0 ± MEM[MEM[addr]], with the leftovers (D5, log 11). -/
def Obligations.AddSubAccumulate : Prop :=
  ∀ (s : State) (a : Int), s.valid (s.after 1) = true → s.valid a = true → s.valid (s.cell a) = true →
    let v := s.cell (s.cell a)
    let acc := s.getReg (.rpg 0)
    let done (u : Int) :=
      let r := wrap s.cfg.w u
      closed (State.setReg { atOperand s 1 v with ir := v, int1 := acc, s0 := acc, flags := flagsOf r } (.rpg 0) r)
    exec (.add a) s = .next (done (acc + v)) ∧ exec (.sub a) s = .next (done (acc - v))

/-- R152, R153: regB <- regA ± regB; regA is read with PC = p+1, regB with PC = p+2, and a write of PC comes before the closing PCINC
(leftovers: D5, log 11; wiring: D4, log 14). -/
def Obligations.RegRegArithmetic : Prop :=
  ∀ (s : State) (ia ib : Int) (ra rb : Reg), s.valid (s.after 1) = true → s.valid (s.after 2) = true →
    Selects s .int1 ia ra → Selects s .int2 ib rb →
    let va := State.getReg { s with pc := s.after 1 } ra
    let vb := State.getReg { s with pc := s.after 2 } rb
    let done (u : Int) :=
      let r := wrap s.cfg.w u
      closed (State.setReg { atOperand s 2 ib with int1 := va, s0 := va, sel := ib, flags := flagsOf r } rb r)
    exec (.addRegReg ia ib) s = .next (done (va + vb)) ∧ exec (.subRegReg ia ib) s = .next (done (va - vb))

/-- R154, R155: reg <- MEM[addr] ± reg, the memory value the minuend (leftovers: D5, log 11). -/
def Obligations.MemRegArithmetic : Prop :=
  ∀ (s : State) (a ir : Int) (r : Reg), s.valid (s.after 1) = true → s.valid (s.after 2) = true → s.valid a = true →
    Selects s .int2 ir r →
    let m := s.cell a
    let vr := State.getReg { s with pc := s.after 2, ir := m } r
    let done (u : Int) :=
      let v := wrap s.cfg.w u
      closed (State.setReg { atOperand s 2 ir with ir := m, int1 := m, s0 := m, sel := ir, flags := flagsOf v } r v)
    exec (.addMemReg a ir) s = .next (done (m + vr)) ∧ exec (.subMemReg a ir) s = .next (done (m - vr))

/-- R156, R157: MEM[addr] <- reg ± MEM[addr], the register the minuend and unchanged (leftovers: D5, log 11). -/
def Obligations.RegMemArithmetic : Prop :=
  ∀ (s : State) (ir a : Int) (r : Reg), s.valid (s.after 1) = true → s.valid (s.after 2) = true → s.valid a = true →
    Selects s .int1 ir r →
    let vr := State.getReg { s with pc := s.after 1 } r
    let m := s.cell a
    let done (u : Int) :=
      let v := wrap s.cfg.w u
      closed
      (State.setCell { atOperand s 2 v with ir := v, int1 := vr, s0 := vr, sel := ir, memAL := a, flags := flagsOf v } a v)
    exec (.addRegMem ir a) s = .next (done (vr + m)) ∧ exec (.subRegMem ir a) s = .next (done (vr - m))

/-- R158, R159: reg <- imm ± reg, the immediate the minuend (leftovers: D5, log 11). -/
def Obligations.ImmRegArithmetic : Prop :=
  ∀ (s : State) (i ir : Int) (r : Reg), s.valid (s.after 1) = true → s.valid (s.after 2) = true → Selects s .int2 ir r →
    let vr := State.getReg { s with pc := s.after 2, ir := i } r
    let done (u : Int) :=
      let v := wrap s.cfg.w u
      closed (State.setReg { atOperand s 2 ir with ir := i, int1 := i, s0 := i, sel := ir, flags := flagsOf v } r v)
    exec (.addImmReg i ir) s = .next (done (i + vr)) ∧ exec (.subImmReg i ir) s = .next (done (i - vr))

/-- R160: RPG0 <- RPG0 + 1, in every state; R161: reg <- reg + 1 (leftovers: D5, log 11). -/
def Obligations.Increments : Prop :=
  (∀ s : State, let v := wrap s.cfg.w (s.getReg (.rpg 0) + 1)
    exec .inc s = .next (closed (State.setReg { s with flags := flagsOf v } (.rpg 0) v))) ∧
  ∀ (s : State) (ir : Int) (r : Reg), s.valid (s.after 1) = true → Selects s .int2 ir r →
    let v := wrap s.cfg.w (State.getReg { s with pc := s.after 1 } r + 1)
    exec (.incReg ir) s = .next (closed (State.setReg { atOperand s 1 ir with sel := ir, flags := flagsOf v } r v))

/-! ### Moves, loads and stores: results -/

/-- R170: reg <- MEM[addr]; a stack register is a legal destination (leftovers: D5, log 11). -/
def Obligations.MoveMemRegCopies : Prop :=
  ∀ (s : State) (a ir : Int) (r : Reg), s.valid (s.after 1) = true → s.valid (s.after 2) = true → s.valid a = true →
    resolve s.cfg ir = some (.reg r) →
    exec (.moveMemReg a ir) s =
      .next (closed (State.setReg { atOperand s 2 (s.cell a) with ir := s.cell a, sel := ir } r (s.cell a)))

/-- R171: MEM[addr] <- reg, the register read after both operands (leftovers: D5, log 11). -/
def Obligations.MoveRegMemStores : Prop :=
  ∀ (s : State) (ir a : Int) (r : Reg), s.valid (s.after 1) = true → s.valid (s.after 2) = true → s.valid a = true →
    resolve s.cfg ir = some (.reg r) →
    let v := State.getReg { s with pc := s.after 2 } r
    exec (.moveRegMem ir a) s = .next (closed (State.setCell { atOperand s 2 v with sel := ir, memAL := a } a v))

/-- R172: regB <- regA, regA unchanged (leftovers: D5, log 11). -/
def Obligations.MoveRegRegCopies : Prop :=
  ∀ (s : State) (ia ib : Int) (ra rb : Reg), s.valid (s.after 1) = true → s.valid (s.after 2) = true →
    resolve s.cfg ia = some (.reg ra) → resolve s.cfg ib = some (.reg rb) →
    let va := State.getReg { s with pc := s.after 1 } ra
    exec (.moveRegReg ia ib) s = .next (closed (State.setReg { atOperand s 2 va with ir := va, sel := ib } rb va))

/-- R173: reg <- imm (leftovers: D5, log 11). -/
def Obligations.MoveImmRegLoads : Prop :=
  ∀ (s : State) (i ir : Int) (r : Reg), s.valid (s.after 1) = true → s.valid (s.after 2) = true → resolve s.cfg ir = some (.reg r) →
    exec (.moveImmReg i ir) s = .next (closed (State.setReg { atOperand s 2 i with ir := i, sel := ir } r i))

/-- R174, R175, R176: RPG0 <- MEM[MEM[addr]]; MEM[MEM[addr]] <- RPG0; RPG0 <- imm (leftovers: D5, log 11). -/
def Obligations.AccumulatorLoadStore : Prop :=
  ∀ (s : State) (a : Int), s.valid (s.after 1) = true →
    (s.valid a = true → s.valid (s.cell a) = true →
      exec (.read a) s = .next (closed (State.setReg (atOperand s 1 (s.cell (s.cell a))) (.rpg 0) (s.cell (s.cell a)))) ∧
      exec (.store a) s = .next (closed
        (State.setCell { atOperand s 1 (s.getReg (.rpg 0)) with memAL := s.cell a } (s.cell a) (s.getReg (.rpg 0))))) ∧
    exec (.ldi a) s = .next (closed (State.setReg (atOperand s 1 a) (.rpg 0) a))

/-- R75: a store into the cell after the instruction is what the next FETCH loads (self-modifying code). -/
def Obligations.StoreSeenByNextFetch : Prop :=
  ∀ (s t : State) (ir : Int) (r : Reg), Memory.wf s.cfg.memsize s.mem → s.valid (s.after 1) = true →
    s.valid (s.after 2) = true → s.valid (s.after 3) = true →
    resolve s.cfg ir = some (.reg r) → exec (.moveRegMem ir (s.after 3)) s = .next t →
    t.fetch.ir = State.getReg { s with pc := s.after 2 } r ∧ t.pc = s.after 3

/-! ### Jumps: results -/

/-- R191: `jmp` under either JMP_MODE (the parameter is decision D11, log 6); the new PC is not range-checked. -/
def Obligations.JmpLoadsPc : Prop :=
  ∀ (s : State) (a : Int), s.valid (s.after 1) = true →
    (s.cfg.jmpMode = .indirect → s.valid a = true →
      exec (.jmp a) s = .next { atOperand s 1 (s.cell a) with pc := s.cell a }) ∧
    (s.cfg.jmpMode = .direct → exec (.jmp a) s = .next { atOperand s 1 a with pc := a })

/-- R192, R193: `jz` and `jn` choose between target and fall-through by the flag an earlier instruction left, through the selector memory; the
flags stay and the target is not range-checked. -/
def Obligations.FlagJumpsSelect : Prop :=
  ∀ (s : State) (a : Int), s.valid (s.after 1) = true →
    exec (.jz a) s = .next (jumped s s.flags.zero a (s.after 2) (s.after 2) a) ∧
    exec (.jn a) s = .next (jumped s s.flags.negative a (s.after 2) (s.after 2) a)

/-- R194 to R197: the four compare-and-jumps set the flags from the wrapped difference and branch on it being zero, not zero, not negative,
negative; for `jneq` and `jgt` the selector cells are swapped (decision D15, log 16). -/
def Obligations.CompareJumpsSelect : Prop :=
  ∀ (s : State) (ia ib a : Int) (ra rb : Reg), s.valid (s.after 1) = true → s.valid (s.after 2) = true →
    s.valid (s.after 3) = true → Selects s .int1 ia ra → Selects s .int2 ib rb →
    let va := State.getReg { s with pc := s.after 1 } ra
    let d := wrap s.cfg.w (va - State.getReg { s with pc := s.after 2 } rb)
    let base := compared s va d ib
    let ft := s.after 4
    exec (.jeq ia ib a) s = .next (jumped base (decide (d = 0)) a ft ft a) ∧
    exec (.jneq ia ib a) s = .next (jumped base (decide (d ≠ 0)) a ft a ft) ∧
    exec (.jgt ia ib a) s = .next (jumped base (decide (0 ≤ d)) a ft a ft) ∧
    exec (.jlw ia ib a) s = .next (jumped base (decide (d < 0)) a ft ft a)

/-! ### The multiply placeholders -/

/-- R209 to R212: under IMUL_MODE nop_advance only PC advances (and INT2, S1 with it), under nop_stay nothing changes, under fault the run ends
in FAULTED(NotImplemented) with nothing else changed; never a product (decision D9, log 7). -/
def Obligations.ImulFollowsMode : Prop :=
  ∀ (s : State), ∀ i ∈ [Instr.imulMemReg, .imulRegMem, .imulRegReg],
    (s.cfg.imulMode = .nopAdvance → exec i s = .next (closed s)) ∧
    (s.cfg.imulMode = .nopStay → exec i s = .next s) ∧
    (s.cfg.imulMode = .fault → exec i s = .next { s with run := .faulted .notImplemented })

/-! ### Where a form faults -/

/-- R66, R222: an instruction whose first operand cell lies past memory faults at that operand's fetch, whatever it is. -/
def Obligations.FirstOperandPastMemoryFaults : Prop :=
  ∀ (s : State) (i : Instr), i.operands ≠ [] → s.valid (s.after 1) = false →
    exec i s = .next ((atOperand s 1 (s.after 1)).raise .fatalAddressing)

/-- R66, R222: for an instruction with legal operands, a second or third operand cell past memory faults at its fetch, with nothing written but
what the earlier micro-operations wrote: for the third operand the flags of the comparison are already there. The order is D5's. -/
def Obligations.LaterOperandPastMemoryFaults : Prop :=
  ∀ (s : State) (i : Instr), i.wellFormed s.cfg = true → s.valid (s.after 1) = true →
    (2 ≤ i.operands.length → s.valid (s.after 2) = false →
      ∃ t, exec i s = .next t ∧ t.run = .faulted .fatalAddressing ∧ t.pc = s.after 2 ∧ t.ext = s.after 2 ∧ t.mem = s.mem ∧
        t.flags = s.flags ∧ ∀ x, x ≠ .pc → x ≠ .ir → t.getReg x = s.getReg x) ∧
    ∀ (ia ib a : Int) (ra rb : Reg), i ∈ [Instr.jeq ia ib a, .jneq ia ib a, .jgt ia ib a, .jlw ia ib a] →
      resolve s.cfg ia = some (.reg ra) → resolve s.cfg ib = some (.reg rb) →
      s.valid (s.after 2) = true → s.valid (s.after 3) = false →
      ∃ t, exec i s = .next t ∧ t.run = .faulted .fatalAddressing ∧ t.pc = s.after 3 ∧ t.ext = s.after 3 ∧ t.mem = s.mem ∧
        t.flags = flagsOf (wrap s.cfg.w (State.getReg { s with pc := s.after 1 } ra - State.getReg { s with pc := s.after 2 } rb)) ∧
        ∀ x, x ≠ .pc → t.getReg x = s.getReg x

/-- R222: an operand used as an address out of range faults at the read, the bad address left on EXT; `jmp` so under JMP_MODE = indirect. -/
def Obligations.OperandAddressFaults : Prop :=
  ∀ (s : State) (a r : Int), s.valid (s.after 1) = true → s.valid a = false →
    (∀ i ∈ [Instr.add a, .sub a, .read a, .store a, .addMemReg a r, .subMemReg a r, .moveMemReg a r],
      exec i s = .next ((atOperand s 1 a).raise .fatalAddressing)) ∧
    (s.cfg.jmpMode = .indirect → exec (.jmp a) s = .next ((atOperand s 1 a).raise .fatalAddressing))

/-- R222: a pointer cell that holds an address out of range faults at the second indirection of `add`, `sub`, `read`, and at the data phase of
`store`, where it has been latched (decision D16, log 18). -/
def Obligations.SecondIndirectionFaults : Prop :=
  ∀ (s : State) (a : Int), s.valid (s.after 1) = true → s.valid a = true → s.valid (s.cell a) = false →
    (∀ i ∈ [Instr.add a, .sub a, .read a], exec i s = .next ((atOperand s 1 (s.cell a)).raise .fatalAddressing)) ∧
    exec (.store a) s = .next (State.raise .fatalAddressing { atOperand s 1 (s.getReg (.rpg 0)) with memAL := s.cell a })

/-- R223, R224, R228: a first operand that selects no register, or one not wired to the bus the instruction moves it over, faults before the second
operand is fetched; the index check comes first (decisions D13, D14, log 15). -/
def Obligations.FirstRegisterOperandFaults : Prop :=
  ∀ (s : State) (ia x y : Int) (f : Fault), s.valid (s.after 1) = true →
    let stopped := State.raise f { atOperand s 1 ia with sel := ia }
    (regFault s.cfg .int1 ia = some f →
      ∀ i ∈ [Instr.addRegReg ia x, .subRegReg ia x, .addRegMem ia x, .subRegMem ia x,
             .jeq ia x y, .jneq ia x y, .jgt ia x y, .jlw ia x y], exec i s = .next stopped) ∧
    (regFault s.cfg .int2 ia = some f → exec (.incReg ia) s = .next stopped) ∧
    (regFault s.cfg .ext ia = some f → exec (.moveRegReg ia x) s = .next stopped)

/-- R223, R224: a second operand that selects no register, or one not wired to the bus, faults after the first operand has been used; SEL holds the
index, and no register but PC and IR, no flag and no memory cell has changed (decisions D5, D13, D14). -/
def Obligations.SecondRegisterOperandFaults : Prop :=
  ∀ (s : State) (ia ib a y : Int) (ra : Reg) (f : Fault), s.valid (s.after 1) = true → s.valid (s.after 2) = true →
    s.valid a = true → resolve s.cfg ia = some (.reg ra) →
    let stopped (i : Instr) := ∃ t, exec i s = .next t ∧ t.run = .faulted f ∧ t.sel = ib ∧ t.pc = s.after 2 ∧ t.mem = s.mem ∧
      t.flags = s.flags ∧ ∀ x, x ≠ .pc → x ≠ .ir → t.getReg x = s.getReg x
    (regFault s.cfg .int2 ib = some f → regFault s.cfg .int1 ia = none →
      ∀ i ∈ [Instr.addRegReg ia ib, .subRegReg ia ib, .jeq ia ib y, .jneq ia ib y, .jgt ia ib y, .jlw ia ib y], stopped i) ∧
    (regFault s.cfg .int2 ib = some f →
      ∀ i ∈ [Instr.addMemReg a ib, .subMemReg a ib, .addImmReg y ib, .subImmReg y ib], stopped i) ∧
    (regFault s.cfg .ext ib = some f → ∀ i ∈ [Instr.moveMemReg a ib, .moveRegReg ia ib, .moveImmReg y ib], stopped i)

/-- R222, R228: the instructions that store. `addRegMem`, `subRegMem` fault on a bad address at the data read; `moveRegMem` faults on a bad register at the
register read, before a bad address can be seen, and on a bad address at the data phase. Nothing is stored (decisions D5, D16). -/
def Obligations.StoringFormsFault : Prop :=
  ∀ (s : State) (ir a : Int) (r : Reg) (f : Fault), s.valid (s.after 1) = true → s.valid (s.after 2) = true →
    (s.valid a = false → Selects s .int1 ir r → ∀ i ∈ [Instr.addRegMem ir a, .subRegMem ir a],
      exec i s = .next (State.raise .fatalAddressing
        { atOperand s 2 a with sel := ir, int1 := State.getReg { s with pc := s.after 1 } r,
                               s0 := State.getReg { s with pc := s.after 1 } r })) ∧
    (regFault s.cfg .ext ir = some f →
      exec (.moveRegMem ir a) s = .next (State.raise f { atOperand s 2 a with sel := ir, memAL := a })) ∧
    (s.valid a = false → resolve s.cfg ir = some (.reg r) →
      exec (.moveRegMem ir a) s = .next (State.raise .fatalAddressing
        { atOperand s 2 (State.getReg { s with pc := s.after 2 } r) with sel := ir, memAL := a }))

/-- R221, R222: whatever fault ends an instruction, no memory cell has been written. -/
def Obligations.FaultedInstructionStoresNothing : Prop :=
  ∀ (s t : State) (i : Instr) (f : Fault), s.run = .running → exec i s = .next t → t.run = .faulted f → t.mem = s.mem

/-- R92, R117, R118: an instruction whose operands are legal never ends in RegisterIndexFault or ConfigurationFault. -/
def Obligations.LegalOperandsNeverMisselect : Prop :=
  ∀ (s t : State) (i : Instr), s.run = .running → i.wellFormed s.cfg = true → exec i s = .next t →
    t.run ≠ .faulted .registerIndexFault ∧ t.run ≠ .faulted .configurationFault

/-! ### Frames -/

/-- The arithmetic instructions with a register destination change that register, PC, IR where they bridge a value through it (D5), and the flags;
no memory cell, selector cell or store latch, and SEL, INT1, S0 only where the sequence uses them. -/
def Obligations.RegisterArithmeticFrame : Prop :=
  ∀ (s t : State) (x y : Int),
    (∀ i ∈ [Instr.add x, .sub x], exec i s = .next t → Frame s t [.rpg 0, .ir, .pc] none ∧ LatchesKept s t ∧ t.sel = s.sel) ∧
    (∀ i ∈ [Instr.addRegReg x y, .subRegReg x y], exec i s = .next t → Frame s t (.pc :: named s.cfg y) none ∧ LatchesKept s t) ∧
    (∀ i ∈ [Instr.addMemReg x y, .subMemReg x y, .addImmReg x y, .subImmReg x y],
      exec i s = .next t → Frame s t (.ir :: .pc :: named s.cfg y) none ∧ LatchesKept s t) ∧
    (exec .inc s = .next t → Frame s t [.rpg 0, .pc] none ∧ LatchesKept s t ∧
      t.sel = s.sel ∧ t.int1 = s.int1 ∧ t.s0 = s.s0 ∧ t.ext = s.ext) ∧
    (exec (.incReg x) s = .next t → Frame s t (.pc :: named s.cfg x) none ∧ LatchesKept s t ∧ t.int1 = s.int1 ∧ t.s0 = s.s0)

/-- The moves and loads with a register destination change that register, PC and IR where the value waits there (D5); no flag, no memory cell. -/
def Obligations.RegisterMoveFrame : Prop :=
  ∀ (s t : State) (x y : Int),
    (∀ i ∈ [Instr.moveMemReg x y, .moveRegReg x y, .moveImmReg x y], exec i s = .next t →
      Frame s t (.ir :: .pc :: named s.cfg y) none ∧ LatchesKept s t ∧ t.flags = s.flags ∧ t.int1 = s.int1 ∧ t.s0 = s.s0) ∧
    (∀ i ∈ [Instr.read x, .ldi x], exec i s = .next t →
      Frame s t [.rpg 0, .pc] none ∧ LatchesKept s t ∧ t.flags = s.flags ∧ t.int1 = s.int1 ∧ t.s0 = s.s0 ∧ t.sel = s.sel)

/-- The instructions that store change one memory cell, the one whose address they compute (the operand, or for `store` the content of the cell it
names), and PC; the arithmetic ones also IR (D5) and the flags. No other register changes: the register operand is only read. -/
def Obligations.StoreFrame : Prop :=
  ∀ (s t : State) (r a : Int),
    (∀ i ∈ [Instr.addRegMem r a, .subRegMem r a], exec i s = .next t → Frame s t [.ir, .pc] (some a.toNat)) ∧
    (exec (.moveRegMem r a) s = .next t →
      Frame s t [.pc] (some a.toNat) ∧ t.flags = s.flags ∧ t.int1 = s.int1 ∧ t.s0 = s.s0) ∧
    (exec (.store a) s = .next t →
      Frame s t [.pc] (some (s.cell a).toNat) ∧ t.flags = s.flags ∧ t.int1 = s.int1 ∧ t.s0 = s.s0 ∧ t.sel = s.sel) ∧
    ∀ i ∈ [Instr.addRegMem r a, .subRegMem r a, .moveRegMem r a, .store a], exec i s = .next t →
      t.selmem0 = s.selmem0 ∧ t.selmem1 = s.selmem1

/-- The jumps change PC and no other register, and no memory cell; `jmp`, `jz`, `jn` leave the flags, and only the conditional ones touch the selector
cells. -/
def Obligations.JumpFrame : Prop :=
  ∀ (s t : State) (x y a : Int),
    (exec (.jmp a) s = .next t → Frame s t [.pc] none ∧ LatchesKept s t ∧ t.flags = s.flags ∧
      t.int1 = s.int1 ∧ t.s0 = s.s0 ∧ t.sel = s.sel) ∧
    (∀ i ∈ [Instr.jz a, .jn a], exec i s = .next t → Frame s t [.pc] none ∧ t.memAL = s.memAL ∧ t.flags = s.flags ∧
      t.int1 = s.int1 ∧ t.s0 = s.s0 ∧ t.sel = s.sel) ∧
    ∀ i ∈ [Instr.jeq x y a, .jneq x y a, .jgt x y a, .jlw x y a], exec i s = .next t → Frame s t [.pc] none ∧ t.memAL = s.memAL

/-- The multiply placeholders change at most PC (with INT2 and S1) and RUN. -/
def Obligations.ImulFrame : Prop :=
  ∀ (s t : State), ∀ i ∈ [Instr.imulMemReg, .imulRegMem, .imulRegReg], exec i s = .next t →
    Frame s t [.pc] none ∧ LatchesKept s t ∧ t.flags = s.flags ∧ t.int1 = s.int1 ∧ t.s0 = s.s0 ∧ t.sel = s.sel ∧ t.ext = s.ext

/-! ### Whole-machine rules -/

/-- R26: every instruction but the jumps and the placeholders that completes without a PC destination leaves PC at p + 1 + its operand count. -/
def Obligations.AdvanceLaw : Prop :=
  ∀ (s t : State) (i : Instr), s.run = .running → isJump i = false → isImul i = false → Reg.pc ∉ destination s.cfg i →
    exec i s = .next t → t.run = .running → t.pc = s.after (1 + i.operands.length)

/-- R177, whole: the move family neither reads nor writes FLAGS, S0 or INT1; only the four moves read or write the stack registers; only the four
storing instructions write main memory. -/
def Obligations.MoveFamilyIsolation : Prop :=
  ∀ (s t : State) (i : Instr), exec i s = .next t →
    (isMoveFamily i = true → ∀ (f : Flags) (x y : Int),
      exec i { s with flags := f, s0 := x, int1 := y } = .next { t with flags := f, s0 := x, int1 := y }) ∧
    (isMove i = false → ∀ x y : Int,
      exec i { s with stkTop := x, stkBot := y } = .next { t with stkTop := x, stkBot := y }) ∧
    (storesToMemory i = false → t.mem = s.mem)

/-- R32: exactly the sixteen arithmetic and comparing instructions write the flags, and when they complete the flags they leave do not depend on those
they found; of the others only `jz` and `jn` read them, one bit each; FETCH leaves them. -/
def Obligations.FlagReadersAndWriters : Prop :=
  ∀ (s t : State) (i : Instr) (f : Flags), s.run = .running → exec i s = .next t →
    s.fetch.flags = s.flags ∧
    (writesFlags i = false → t.flags = s.flags) ∧
    (writesFlags i = true → t.run = .running → exec i { s with flags := f } = .next t) ∧
    (writesFlags i = false → (∀ a, i = .jz a → f.zero = s.flags.zero) → (∀ a, i = .jn a → f.negative = s.flags.negative) →
      exec i { s with flags := f } = .next { t with flags := f })
end

