-- ==== Sys2Proof/Laws/State.lean ====
section
/-! SUPPORT. One lemma per field per update of State: what every update changes and that it changes nothing else. -/

namespace Sys2Proof.Machine

/-! ### raise -/

@[simp] theorem State.raise_rpg (s : State) (f : Fault) : (s.raise f).rpg = s.rpg := rfl
@[simp] theorem State.raise_stkTop (s : State) (f : Fault) : (s.raise f).stkTop = s.stkTop := rfl
@[simp] theorem State.raise_stkBot (s : State) (f : Fault) : (s.raise f).stkBot = s.stkBot := rfl
@[simp] theorem State.raise_pc (s : State) (f : Fault) : (s.raise f).pc = s.pc := rfl
@[simp] theorem State.raise_ir (s : State) (f : Fault) : (s.raise f).ir = s.ir := rfl
@[simp] theorem State.raise_flags (s : State) (f : Fault) : (s.raise f).flags = s.flags := rfl
@[simp] theorem State.raise_ext (s : State) (f : Fault) : (s.raise f).ext = s.ext := rfl
@[simp] theorem State.raise_int1 (s : State) (f : Fault) : (s.raise f).int1 = s.int1 := rfl
@[simp] theorem State.raise_int2 (s : State) (f : Fault) : (s.raise f).int2 = s.int2 := rfl
@[simp] theorem State.raise_s0 (s : State) (f : Fault) : (s.raise f).s0 = s.s0 := rfl
@[simp] theorem State.raise_s1 (s : State) (f : Fault) : (s.raise f).s1 = s.s1 := rfl
@[simp] theorem State.raise_sel (s : State) (f : Fault) : (s.raise f).sel = s.sel := rfl
@[simp] theorem State.raise_memAL (s : State) (f : Fault) : (s.raise f).memAL = s.memAL := rfl
@[simp] theorem State.raise_selmem0 (s : State) (f : Fault) : (s.raise f).selmem0 = s.selmem0 := rfl
@[simp] theorem State.raise_selmem1 (s : State) (f : Fault) : (s.raise f).selmem1 = s.selmem1 := rfl
@[simp] theorem State.raise_selAL (s : State) (f : Fault) : (s.raise f).selAL = s.selAL := rfl
@[simp] theorem State.raise_mem (s : State) (f : Fault) : (s.raise f).mem = s.mem := rfl
@[simp] theorem State.raise_run (s : State) (f : Fault) : (s.raise f).run = .faulted f := rfl
@[simp] theorem State.raise_cfg (s : State) (f : Fault) : (s.raise f).cfg = s.cfg := rfl

/-! ### halt -/

@[simp] theorem State.halt_rpg (s : State) : (s.halt).rpg = s.rpg := rfl
@[simp] theorem State.halt_stkTop (s : State) : (s.halt).stkTop = s.stkTop := rfl
@[simp] theorem State.halt_stkBot (s : State) : (s.halt).stkBot = s.stkBot := rfl
@[simp] theorem State.halt_pc (s : State) : (s.halt).pc = s.pc := rfl
@[simp] theorem State.halt_ir (s : State) : (s.halt).ir = s.ir := rfl
@[simp] theorem State.halt_flags (s : State) : (s.halt).flags = s.flags := rfl
@[simp] theorem State.halt_ext (s : State) : (s.halt).ext = s.ext := rfl
@[simp] theorem State.halt_int1 (s : State) : (s.halt).int1 = s.int1 := rfl
@[simp] theorem State.halt_int2 (s : State) : (s.halt).int2 = s.int2 := rfl
@[simp] theorem State.halt_s0 (s : State) : (s.halt).s0 = s.s0 := rfl
@[simp] theorem State.halt_s1 (s : State) : (s.halt).s1 = s.s1 := rfl
@[simp] theorem State.halt_sel (s : State) : (s.halt).sel = s.sel := rfl
@[simp] theorem State.halt_memAL (s : State) : (s.halt).memAL = s.memAL := rfl
@[simp] theorem State.halt_selmem0 (s : State) : (s.halt).selmem0 = s.selmem0 := rfl
@[simp] theorem State.halt_selmem1 (s : State) : (s.halt).selmem1 = s.selmem1 := rfl
@[simp] theorem State.halt_selAL (s : State) : (s.halt).selAL = s.selAL := rfl
@[simp] theorem State.halt_mem (s : State) : (s.halt).mem = s.mem := rfl
@[simp] theorem State.halt_run (s : State) : (s.halt).run = .halted := rfl
@[simp] theorem State.halt_cfg (s : State) : (s.halt).cfg = s.cfg := rfl

/-! ### setCell -/

@[simp] theorem State.setCell_rpg (s : State) (a v : Int) : (s.setCell a v).rpg = s.rpg := rfl
@[simp] theorem State.setCell_stkTop (s : State) (a v : Int) : (s.setCell a v).stkTop = s.stkTop := rfl
@[simp] theorem State.setCell_stkBot (s : State) (a v : Int) : (s.setCell a v).stkBot = s.stkBot := rfl
@[simp] theorem State.setCell_pc (s : State) (a v : Int) : (s.setCell a v).pc = s.pc := rfl
@[simp] theorem State.setCell_ir (s : State) (a v : Int) : (s.setCell a v).ir = s.ir := rfl
@[simp] theorem State.setCell_flags (s : State) (a v : Int) : (s.setCell a v).flags = s.flags := rfl
@[simp] theorem State.setCell_ext (s : State) (a v : Int) : (s.setCell a v).ext = s.ext := rfl
@[simp] theorem State.setCell_int1 (s : State) (a v : Int) : (s.setCell a v).int1 = s.int1 := rfl
@[simp] theorem State.setCell_int2 (s : State) (a v : Int) : (s.setCell a v).int2 = s.int2 := rfl
@[simp] theorem State.setCell_s0 (s : State) (a v : Int) : (s.setCell a v).s0 = s.s0 := rfl
@[simp] theorem State.setCell_s1 (s : State) (a v : Int) : (s.setCell a v).s1 = s.s1 := rfl
@[simp] theorem State.setCell_sel (s : State) (a v : Int) : (s.setCell a v).sel = s.sel := rfl
@[simp] theorem State.setCell_memAL (s : State) (a v : Int) : (s.setCell a v).memAL = s.memAL := rfl
@[simp] theorem State.setCell_selmem0 (s : State) (a v : Int) : (s.setCell a v).selmem0 = s.selmem0 := rfl
@[simp] theorem State.setCell_selmem1 (s : State) (a v : Int) : (s.setCell a v).selmem1 = s.selmem1 := rfl
@[simp] theorem State.setCell_selAL (s : State) (a v : Int) : (s.setCell a v).selAL = s.selAL := rfl
@[simp] theorem State.setCell_mem (s : State) (a v : Int) : (s.setCell a v).mem = Memory.write s.mem a.toNat v := rfl
@[simp] theorem State.setCell_run (s : State) (a v : Int) : (s.setCell a v).run = s.run := rfl
@[simp] theorem State.setCell_cfg (s : State) (a v : Int) : (s.setCell a v).cfg = s.cfg := rfl

/-! ### selSet -/

@[simp] theorem State.selSet_rpg (s : State) : (s.selSet).rpg = s.rpg := rfl
@[simp] theorem State.selSet_stkTop (s : State) : (s.selSet).stkTop = s.stkTop := rfl
@[simp] theorem State.selSet_stkBot (s : State) : (s.selSet).stkBot = s.stkBot := rfl
@[simp] theorem State.selSet_pc (s : State) : (s.selSet).pc = s.pc := rfl
@[simp] theorem State.selSet_ir (s : State) : (s.selSet).ir = s.ir := rfl
@[simp] theorem State.selSet_flags (s : State) : (s.selSet).flags = s.flags := rfl
@[simp] theorem State.selSet_ext (s : State) : (s.selSet).ext = s.ext := rfl
@[simp] theorem State.selSet_int1 (s : State) : (s.selSet).int1 = s.int1 := rfl
@[simp] theorem State.selSet_int2 (s : State) : (s.selSet).int2 = s.int2 := rfl
@[simp] theorem State.selSet_s0 (s : State) : (s.selSet).s0 = s.s0 := rfl
@[simp] theorem State.selSet_s1 (s : State) : (s.selSet).s1 = s.s1 := rfl
@[simp] theorem State.selSet_sel (s : State) : (s.selSet).sel = s.ext := rfl
@[simp] theorem State.selSet_memAL (s : State) : (s.selSet).memAL = s.memAL := rfl
@[simp] theorem State.selSet_selmem0 (s : State) : (s.selSet).selmem0 = s.selmem0 := rfl
@[simp] theorem State.selSet_selmem1 (s : State) : (s.selSet).selmem1 = s.selmem1 := rfl
@[simp] theorem State.selSet_selAL (s : State) : (s.selSet).selAL = s.selAL := rfl
@[simp] theorem State.selSet_mem (s : State) : (s.selSet).mem = s.mem := rfl
@[simp] theorem State.selSet_run (s : State) : (s.selSet).run = s.run := rfl
@[simp] theorem State.selSet_cfg (s : State) : (s.selSet).cfg = s.cfg := rfl

/-! ### memSta -/

@[simp] theorem State.memSta_rpg (s : State) : (s.memSta).rpg = s.rpg := rfl
@[simp] theorem State.memSta_stkTop (s : State) : (s.memSta).stkTop = s.stkTop := rfl
@[simp] theorem State.memSta_stkBot (s : State) : (s.memSta).stkBot = s.stkBot := rfl
@[simp] theorem State.memSta_pc (s : State) : (s.memSta).pc = s.pc := rfl
@[simp] theorem State.memSta_ir (s : State) : (s.memSta).ir = s.ir := rfl
@[simp] theorem State.memSta_flags (s : State) : (s.memSta).flags = s.flags := rfl
@[simp] theorem State.memSta_ext (s : State) : (s.memSta).ext = s.ext := rfl
@[simp] theorem State.memSta_int1 (s : State) : (s.memSta).int1 = s.int1 := rfl
@[simp] theorem State.memSta_int2 (s : State) : (s.memSta).int2 = s.int2 := rfl
@[simp] theorem State.memSta_s0 (s : State) : (s.memSta).s0 = s.s0 := rfl
@[simp] theorem State.memSta_s1 (s : State) : (s.memSta).s1 = s.s1 := rfl
@[simp] theorem State.memSta_sel (s : State) : (s.memSta).sel = s.sel := rfl
@[simp] theorem State.memSta_memAL (s : State) : (s.memSta).memAL = s.ext := rfl
@[simp] theorem State.memSta_selmem0 (s : State) : (s.memSta).selmem0 = s.selmem0 := rfl
@[simp] theorem State.memSta_selmem1 (s : State) : (s.memSta).selmem1 = s.selmem1 := rfl
@[simp] theorem State.memSta_selAL (s : State) : (s.memSta).selAL = s.selAL := rfl
@[simp] theorem State.memSta_mem (s : State) : (s.memSta).mem = s.mem := rfl
@[simp] theorem State.memSta_run (s : State) : (s.memSta).run = s.run := rfl
@[simp] theorem State.memSta_cfg (s : State) : (s.memSta).cfg = s.cfg := rfl

/-! ### aluAdd -/

@[simp] theorem State.aluAdd_rpg (s : State) : (s.aluAdd).rpg = s.rpg := rfl
@[simp] theorem State.aluAdd_stkTop (s : State) : (s.aluAdd).stkTop = s.stkTop := rfl
@[simp] theorem State.aluAdd_stkBot (s : State) : (s.aluAdd).stkBot = s.stkBot := rfl
@[simp] theorem State.aluAdd_pc (s : State) : (s.aluAdd).pc = s.pc := rfl
@[simp] theorem State.aluAdd_ir (s : State) : (s.aluAdd).ir = s.ir := rfl
@[simp] theorem State.aluAdd_flags (s : State) : (s.aluAdd).flags = s.flags := rfl
@[simp] theorem State.aluAdd_ext (s : State) : (s.aluAdd).ext = s.ext := rfl
@[simp] theorem State.aluAdd_int1 (s : State) : (s.aluAdd).int1 = s.int1 := rfl
@[simp] theorem State.aluAdd_int2 (s : State) : (s.aluAdd).int2 = s.int2 := rfl
@[simp] theorem State.aluAdd_s0 (s : State) : (s.aluAdd).s0 = s.s0 := rfl
@[simp] theorem State.aluAdd_s1 (s : State) : (s.aluAdd).s1 = wrap s.cfg.w (s.s0 + s.s1) := rfl
@[simp] theorem State.aluAdd_sel (s : State) : (s.aluAdd).sel = s.sel := rfl
@[simp] theorem State.aluAdd_memAL (s : State) : (s.aluAdd).memAL = s.memAL := rfl
@[simp] theorem State.aluAdd_selmem0 (s : State) : (s.aluAdd).selmem0 = s.selmem0 := rfl
@[simp] theorem State.aluAdd_selmem1 (s : State) : (s.aluAdd).selmem1 = s.selmem1 := rfl
@[simp] theorem State.aluAdd_selAL (s : State) : (s.aluAdd).selAL = s.selAL := rfl
@[simp] theorem State.aluAdd_mem (s : State) : (s.aluAdd).mem = s.mem := rfl
@[simp] theorem State.aluAdd_run (s : State) : (s.aluAdd).run = s.run := rfl
@[simp] theorem State.aluAdd_cfg (s : State) : (s.aluAdd).cfg = s.cfg := rfl

/-! ### aluSub -/

@[simp] theorem State.aluSub_rpg (s : State) : (s.aluSub).rpg = s.rpg := rfl
@[simp] theorem State.aluSub_stkTop (s : State) : (s.aluSub).stkTop = s.stkTop := rfl
@[simp] theorem State.aluSub_stkBot (s : State) : (s.aluSub).stkBot = s.stkBot := rfl
@[simp] theorem State.aluSub_pc (s : State) : (s.aluSub).pc = s.pc := rfl
@[simp] theorem State.aluSub_ir (s : State) : (s.aluSub).ir = s.ir := rfl
@[simp] theorem State.aluSub_flags (s : State) : (s.aluSub).flags = s.flags := rfl
@[simp] theorem State.aluSub_ext (s : State) : (s.aluSub).ext = s.ext := rfl
@[simp] theorem State.aluSub_int1 (s : State) : (s.aluSub).int1 = s.int1 := rfl
@[simp] theorem State.aluSub_int2 (s : State) : (s.aluSub).int2 = s.int2 := rfl
@[simp] theorem State.aluSub_s0 (s : State) : (s.aluSub).s0 = s.s0 := rfl
@[simp] theorem State.aluSub_s1 (s : State) : (s.aluSub).s1 = wrap s.cfg.w (s.s0 - s.s1) := rfl
@[simp] theorem State.aluSub_sel (s : State) : (s.aluSub).sel = s.sel := rfl
@[simp] theorem State.aluSub_memAL (s : State) : (s.aluSub).memAL = s.memAL := rfl
@[simp] theorem State.aluSub_selmem0 (s : State) : (s.aluSub).selmem0 = s.selmem0 := rfl
@[simp] theorem State.aluSub_selmem1 (s : State) : (s.aluSub).selmem1 = s.selmem1 := rfl
@[simp] theorem State.aluSub_selAL (s : State) : (s.aluSub).selAL = s.selAL := rfl
@[simp] theorem State.aluSub_mem (s : State) : (s.aluSub).mem = s.mem := rfl
@[simp] theorem State.aluSub_run (s : State) : (s.aluSub).run = s.run := rfl
@[simp] theorem State.aluSub_cfg (s : State) : (s.aluSub).cfg = s.cfg := rfl

/-! ### aluInc -/

@[simp] theorem State.aluInc_rpg (s : State) : (s.aluInc).rpg = s.rpg := rfl
@[simp] theorem State.aluInc_stkTop (s : State) : (s.aluInc).stkTop = s.stkTop := rfl
@[simp] theorem State.aluInc_stkBot (s : State) : (s.aluInc).stkBot = s.stkBot := rfl
@[simp] theorem State.aluInc_pc (s : State) : (s.aluInc).pc = s.pc := rfl
@[simp] theorem State.aluInc_ir (s : State) : (s.aluInc).ir = s.ir := rfl
@[simp] theorem State.aluInc_flags (s : State) : (s.aluInc).flags = s.flags := rfl
@[simp] theorem State.aluInc_ext (s : State) : (s.aluInc).ext = s.ext := rfl
@[simp] theorem State.aluInc_int1 (s : State) : (s.aluInc).int1 = s.int1 := rfl
@[simp] theorem State.aluInc_int2 (s : State) : (s.aluInc).int2 = s.int2 := rfl
@[simp] theorem State.aluInc_s0 (s : State) : (s.aluInc).s0 = s.s0 := rfl
@[simp] theorem State.aluInc_s1 (s : State) : (s.aluInc).s1 = wrap s.cfg.w (s.s1 + 1) := rfl
@[simp] theorem State.aluInc_sel (s : State) : (s.aluInc).sel = s.sel := rfl
@[simp] theorem State.aluInc_memAL (s : State) : (s.aluInc).memAL = s.memAL := rfl
@[simp] theorem State.aluInc_selmem0 (s : State) : (s.aluInc).selmem0 = s.selmem0 := rfl
@[simp] theorem State.aluInc_selmem1 (s : State) : (s.aluInc).selmem1 = s.selmem1 := rfl
@[simp] theorem State.aluInc_selAL (s : State) : (s.aluInc).selAL = s.selAL := rfl
@[simp] theorem State.aluInc_mem (s : State) : (s.aluInc).mem = s.mem := rfl
@[simp] theorem State.aluInc_run (s : State) : (s.aluInc).run = s.run := rfl
@[simp] theorem State.aluInc_cfg (s : State) : (s.aluInc).cfg = s.cfg := rfl

/-! ### flagsUpd -/

@[simp] theorem State.flagsUpd_rpg (s : State) : (s.flagsUpd).rpg = s.rpg := rfl
@[simp] theorem State.flagsUpd_stkTop (s : State) : (s.flagsUpd).stkTop = s.stkTop := rfl
@[simp] theorem State.flagsUpd_stkBot (s : State) : (s.flagsUpd).stkBot = s.stkBot := rfl
@[simp] theorem State.flagsUpd_pc (s : State) : (s.flagsUpd).pc = s.pc := rfl
@[simp] theorem State.flagsUpd_ir (s : State) : (s.flagsUpd).ir = s.ir := rfl
@[simp] theorem State.flagsUpd_flags (s : State) : (s.flagsUpd).flags = flagsOf s.int2 := rfl
@[simp] theorem State.flagsUpd_ext (s : State) : (s.flagsUpd).ext = s.ext := rfl
@[simp] theorem State.flagsUpd_int1 (s : State) : (s.flagsUpd).int1 = s.int1 := rfl
@[simp] theorem State.flagsUpd_int2 (s : State) : (s.flagsUpd).int2 = s.int2 := rfl
@[simp] theorem State.flagsUpd_s0 (s : State) : (s.flagsUpd).s0 = s.s0 := rfl
@[simp] theorem State.flagsUpd_s1 (s : State) : (s.flagsUpd).s1 = s.s1 := rfl
@[simp] theorem State.flagsUpd_sel (s : State) : (s.flagsUpd).sel = s.sel := rfl
@[simp] theorem State.flagsUpd_memAL (s : State) : (s.flagsUpd).memAL = s.memAL := rfl
@[simp] theorem State.flagsUpd_selmem0 (s : State) : (s.flagsUpd).selmem0 = s.selmem0 := rfl
@[simp] theorem State.flagsUpd_selmem1 (s : State) : (s.flagsUpd).selmem1 = s.selmem1 := rfl
@[simp] theorem State.flagsUpd_selAL (s : State) : (s.flagsUpd).selAL = s.selAL := rfl
@[simp] theorem State.flagsUpd_mem (s : State) : (s.flagsUpd).mem = s.mem := rfl
@[simp] theorem State.flagsUpd_run (s : State) : (s.flagsUpd).run = s.run := rfl
@[simp] theorem State.flagsUpd_cfg (s : State) : (s.flagsUpd).cfg = s.cfg := rfl

/-! ### flagsBit -/

@[simp] theorem State.flagsBit_rpg (s : State) (i : FlagBit) : (s.flagsBit i).rpg = s.rpg := rfl
@[simp] theorem State.flagsBit_stkTop (s : State) (i : FlagBit) : (s.flagsBit i).stkTop = s.stkTop := rfl
@[simp] theorem State.flagsBit_stkBot (s : State) (i : FlagBit) : (s.flagsBit i).stkBot = s.stkBot := rfl
@[simp] theorem State.flagsBit_pc (s : State) (i : FlagBit) : (s.flagsBit i).pc = s.pc := rfl
@[simp] theorem State.flagsBit_ir (s : State) (i : FlagBit) : (s.flagsBit i).ir = s.ir := rfl
@[simp] theorem State.flagsBit_flags (s : State) (i : FlagBit) : (s.flagsBit i).flags = s.flags := rfl
@[simp] theorem State.flagsBit_ext (s : State) (i : FlagBit) : (s.flagsBit i).ext = bitWord (s.flags.bit i) := rfl
@[simp] theorem State.flagsBit_int1 (s : State) (i : FlagBit) : (s.flagsBit i).int1 = s.int1 := rfl
@[simp] theorem State.flagsBit_int2 (s : State) (i : FlagBit) : (s.flagsBit i).int2 = s.int2 := rfl
@[simp] theorem State.flagsBit_s0 (s : State) (i : FlagBit) : (s.flagsBit i).s0 = s.s0 := rfl
@[simp] theorem State.flagsBit_s1 (s : State) (i : FlagBit) : (s.flagsBit i).s1 = s.s1 := rfl
@[simp] theorem State.flagsBit_sel (s : State) (i : FlagBit) : (s.flagsBit i).sel = s.sel := rfl
@[simp] theorem State.flagsBit_memAL (s : State) (i : FlagBit) : (s.flagsBit i).memAL = s.memAL := rfl
@[simp] theorem State.flagsBit_selmem0 (s : State) (i : FlagBit) : (s.flagsBit i).selmem0 = s.selmem0 := rfl
@[simp] theorem State.flagsBit_selmem1 (s : State) (i : FlagBit) : (s.flagsBit i).selmem1 = s.selmem1 := rfl
@[simp] theorem State.flagsBit_selAL (s : State) (i : FlagBit) : (s.flagsBit i).selAL = s.selAL := rfl
@[simp] theorem State.flagsBit_mem (s : State) (i : FlagBit) : (s.flagsBit i).mem = s.mem := rfl
@[simp] theorem State.flagsBit_run (s : State) (i : FlagBit) : (s.flagsBit i).run = s.run := rfl
@[simp] theorem State.flagsBit_cfg (s : State) (i : FlagBit) : (s.flagsBit i).cfg = s.cfg := rfl

/-! ### setReg -/

@[simp] theorem State.setReg_flags (s : State) (x : Reg) (w : Int) : (s.setReg x w).flags = s.flags := by cases x <;> rfl
@[simp] theorem State.setReg_ext (s : State) (x : Reg) (w : Int) : (s.setReg x w).ext = s.ext := by cases x <;> rfl
@[simp] theorem State.setReg_int1 (s : State) (x : Reg) (w : Int) : (s.setReg x w).int1 = s.int1 := by cases x <;> rfl
@[simp] theorem State.setReg_int2 (s : State) (x : Reg) (w : Int) : (s.setReg x w).int2 = s.int2 := by cases x <;> rfl
@[simp] theorem State.setReg_s0 (s : State) (x : Reg) (w : Int) : (s.setReg x w).s0 = s.s0 := by cases x <;> rfl
@[simp] theorem State.setReg_s1 (s : State) (x : Reg) (w : Int) : (s.setReg x w).s1 = s.s1 := by cases x <;> rfl
@[simp] theorem State.setReg_sel (s : State) (x : Reg) (w : Int) : (s.setReg x w).sel = s.sel := by cases x <;> rfl
@[simp] theorem State.setReg_memAL (s : State) (x : Reg) (w : Int) : (s.setReg x w).memAL = s.memAL := by cases x <;> rfl
@[simp] theorem State.setReg_selmem0 (s : State) (x : Reg) (w : Int) : (s.setReg x w).selmem0 = s.selmem0 := by cases x <;> rfl
@[simp] theorem State.setReg_selmem1 (s : State) (x : Reg) (w : Int) : (s.setReg x w).selmem1 = s.selmem1 := by cases x <;> rfl
@[simp] theorem State.setReg_selAL (s : State) (x : Reg) (w : Int) : (s.setReg x w).selAL = s.selAL := by cases x <;> rfl
@[simp] theorem State.setReg_mem (s : State) (x : Reg) (w : Int) : (s.setReg x w).mem = s.mem := by cases x <;> rfl
@[simp] theorem State.setReg_run (s : State) (x : Reg) (w : Int) : (s.setReg x w).run = s.run := by cases x <;> rfl
@[simp] theorem State.setReg_cfg (s : State) (x : Reg) (w : Int) : (s.setReg x w).cfg = s.cfg := by cases x <;> rfl

/-! ### putBus -/

@[simp] theorem State.putBus_rpg (s : State) (b : Bus) (w : Int) : (s.putBus b w).rpg = s.rpg := by cases b <;> rfl
@[simp] theorem State.putBus_stkTop (s : State) (b : Bus) (w : Int) : (s.putBus b w).stkTop = s.stkTop := by cases b <;> rfl
@[simp] theorem State.putBus_stkBot (s : State) (b : Bus) (w : Int) : (s.putBus b w).stkBot = s.stkBot := by cases b <;> rfl
@[simp] theorem State.putBus_pc (s : State) (b : Bus) (w : Int) : (s.putBus b w).pc = s.pc := by cases b <;> rfl
@[simp] theorem State.putBus_ir (s : State) (b : Bus) (w : Int) : (s.putBus b w).ir = s.ir := by cases b <;> rfl
@[simp] theorem State.putBus_flags (s : State) (b : Bus) (w : Int) : (s.putBus b w).flags = s.flags := by cases b <;> rfl
@[simp] theorem State.putBus_s0 (s : State) (b : Bus) (w : Int) : (s.putBus b w).s0 = s.s0 := by cases b <;> rfl
@[simp] theorem State.putBus_s1 (s : State) (b : Bus) (w : Int) : (s.putBus b w).s1 = s.s1 := by cases b <;> rfl
@[simp] theorem State.putBus_sel (s : State) (b : Bus) (w : Int) : (s.putBus b w).sel = s.sel := by cases b <;> rfl
@[simp] theorem State.putBus_memAL (s : State) (b : Bus) (w : Int) : (s.putBus b w).memAL = s.memAL := by cases b <;> rfl
@[simp] theorem State.putBus_selmem0 (s : State) (b : Bus) (w : Int) : (s.putBus b w).selmem0 = s.selmem0 := by cases b <;> rfl
@[simp] theorem State.putBus_selmem1 (s : State) (b : Bus) (w : Int) : (s.putBus b w).selmem1 = s.selmem1 := by cases b <;> rfl
@[simp] theorem State.putBus_selAL (s : State) (b : Bus) (w : Int) : (s.putBus b w).selAL = s.selAL := by cases b <;> rfl
@[simp] theorem State.putBus_mem (s : State) (b : Bus) (w : Int) : (s.putBus b w).mem = s.mem := by cases b <;> rfl
@[simp] theorem State.putBus_run (s : State) (b : Bus) (w : Int) : (s.putBus b w).run = s.run := by cases b <;> rfl
@[simp] theorem State.putBus_cfg (s : State) (b : Bus) (w : Int) : (s.putBus b w).cfg = s.cfg := by cases b <;> rfl

/-! ### setSlot -/

@[simp] theorem State.setSlot_rpg (s : State) (k : Slot) (w : Int) : (s.setSlot k w).rpg = s.rpg := by cases k <;> rfl
@[simp] theorem State.setSlot_stkTop (s : State) (k : Slot) (w : Int) : (s.setSlot k w).stkTop = s.stkTop := by cases k <;> rfl
@[simp] theorem State.setSlot_stkBot (s : State) (k : Slot) (w : Int) : (s.setSlot k w).stkBot = s.stkBot := by cases k <;> rfl
@[simp] theorem State.setSlot_pc (s : State) (k : Slot) (w : Int) : (s.setSlot k w).pc = s.pc := by cases k <;> rfl
@[simp] theorem State.setSlot_ir (s : State) (k : Slot) (w : Int) : (s.setSlot k w).ir = s.ir := by cases k <;> rfl
@[simp] theorem State.setSlot_flags (s : State) (k : Slot) (w : Int) : (s.setSlot k w).flags = s.flags := by cases k <;> rfl
@[simp] theorem State.setSlot_ext (s : State) (k : Slot) (w : Int) : (s.setSlot k w).ext = s.ext := by cases k <;> rfl
@[simp] theorem State.setSlot_int1 (s : State) (k : Slot) (w : Int) : (s.setSlot k w).int1 = s.int1 := by cases k <;> rfl
@[simp] theorem State.setSlot_int2 (s : State) (k : Slot) (w : Int) : (s.setSlot k w).int2 = s.int2 := by cases k <;> rfl
@[simp] theorem State.setSlot_sel (s : State) (k : Slot) (w : Int) : (s.setSlot k w).sel = s.sel := by cases k <;> rfl
@[simp] theorem State.setSlot_memAL (s : State) (k : Slot) (w : Int) : (s.setSlot k w).memAL = s.memAL := by cases k <;> rfl
@[simp] theorem State.setSlot_selmem0 (s : State) (k : Slot) (w : Int) : (s.setSlot k w).selmem0 = s.selmem0 := by cases k <;> rfl
@[simp] theorem State.setSlot_selmem1 (s : State) (k : Slot) (w : Int) : (s.setSlot k w).selmem1 = s.selmem1 := by cases k <;> rfl
@[simp] theorem State.setSlot_selAL (s : State) (k : Slot) (w : Int) : (s.setSlot k w).selAL = s.selAL := by cases k <;> rfl
@[simp] theorem State.setSlot_mem (s : State) (k : Slot) (w : Int) : (s.setSlot k w).mem = s.mem := by cases k <;> rfl
@[simp] theorem State.setSlot_run (s : State) (k : Slot) (w : Int) : (s.setSlot k w).run = s.run := by cases k <;> rfl
@[simp] theorem State.setSlot_cfg (s : State) (k : Slot) (w : Int) : (s.setSlot k w).cfg = s.cfg := by cases k <;> rfl

/-! ### setSelCell -/

@[simp] theorem State.setSelCell_rpg (s : State) (c : SelCell) (w : Int) : (s.setSelCell c w).rpg = s.rpg := by cases c <;> rfl
@[simp] theorem State.setSelCell_stkTop (s : State) (c : SelCell) (w : Int) : (s.setSelCell c w).stkTop = s.stkTop := by cases c <;> rfl
@[simp] theorem State.setSelCell_stkBot (s : State) (c : SelCell) (w : Int) : (s.setSelCell c w).stkBot = s.stkBot := by cases c <;> rfl
@[simp] theorem State.setSelCell_pc (s : State) (c : SelCell) (w : Int) : (s.setSelCell c w).pc = s.pc := by cases c <;> rfl
@[simp] theorem State.setSelCell_ir (s : State) (c : SelCell) (w : Int) : (s.setSelCell c w).ir = s.ir := by cases c <;> rfl
@[simp] theorem State.setSelCell_flags (s : State) (c : SelCell) (w : Int) : (s.setSelCell c w).flags = s.flags := by cases c <;> rfl
@[simp] theorem State.setSelCell_ext (s : State) (c : SelCell) (w : Int) : (s.setSelCell c w).ext = s.ext := by cases c <;> rfl
@[simp] theorem State.setSelCell_int1 (s : State) (c : SelCell) (w : Int) : (s.setSelCell c w).int1 = s.int1 := by cases c <;> rfl
@[simp] theorem State.setSelCell_int2 (s : State) (c : SelCell) (w : Int) : (s.setSelCell c w).int2 = s.int2 := by cases c <;> rfl
@[simp] theorem State.setSelCell_s0 (s : State) (c : SelCell) (w : Int) : (s.setSelCell c w).s0 = s.s0 := by cases c <;> rfl
@[simp] theorem State.setSelCell_s1 (s : State) (c : SelCell) (w : Int) : (s.setSelCell c w).s1 = s.s1 := by cases c <;> rfl
@[simp] theorem State.setSelCell_sel (s : State) (c : SelCell) (w : Int) : (s.setSelCell c w).sel = s.sel := by cases c <;> rfl
@[simp] theorem State.setSelCell_memAL (s : State) (c : SelCell) (w : Int) : (s.setSelCell c w).memAL = s.memAL := by cases c <;> rfl
@[simp] theorem State.setSelCell_selAL (s : State) (c : SelCell) (w : Int) : (s.setSelCell c w).selAL = s.selAL := by cases c <;> rfl
@[simp] theorem State.setSelCell_mem (s : State) (c : SelCell) (w : Int) : (s.setSelCell c w).mem = s.mem := by cases c <;> rfl
@[simp] theorem State.setSelCell_run (s : State) (c : SelCell) (w : Int) : (s.setSelCell c w).run = s.run := by cases c <;> rfl
@[simp] theorem State.setSelCell_cfg (s : State) (c : SelCell) (w : Int) : (s.setSelCell c w).cfg = s.cfg := by cases c <;> rfl

/-! ### Reading back what an update wrote, and what it left -/

/-- A register the machine has reads back what was written to it. -/
theorem State.getReg_setReg_same (s : State) {x : Reg} (w : Int) (h : s.has x = true) : (s.setReg x w).getReg x = w := by
  cases x with
  | rpg k => simp [State.setReg, State.getReg, List.getD, (by simpa [State.has] using h : k < s.rpg.length)]
  | _ => rfl

theorem State.getReg_setReg_ne (s : State) {x y : Reg} (w : Int) (h : y ≠ x) : (s.setReg x w).getReg y = s.getReg y := by
  cases x <;> cases y <;> first | rfl | exact absurd rfl h | skip
  next j k =>
    have hjk : j ≠ k := fun e => h (e ▸ rfl)
    simp [State.setReg, State.getReg, List.getD, hjk]

/-- Writing a register leaves the number of general registers. -/
@[simp] theorem State.setReg_rpg_length (s : State) (x : Reg) (w : Int) : (s.setReg x w).rpg.length = s.rpg.length := by
  cases x <;> simp [State.setReg]

@[simp] theorem State.getBus_putBus_same (s : State) (b : Bus) (w : Int) : (s.putBus b w).getBus b = w := by cases b <;> rfl

theorem State.getBus_putBus_ne (s : State) {b c : Bus} (w : Int) (h : c ≠ b) : (s.putBus b w).getBus c = s.getBus c := by
  cases b <;> cases c <;> first | rfl | exact absurd rfl h

@[simp] theorem State.getReg_putBus (s : State) (b : Bus) (w : Int) (x : Reg) : (s.putBus b w).getReg x = s.getReg x := by
  cases b <;> rfl

@[simp] theorem State.getBus_setReg (s : State) (x : Reg) (w : Int) (b : Bus) : (s.setReg x w).getBus b = s.getBus b := by
  cases x <;> cases b <;> rfl

@[simp] theorem State.getSlot_setSlot_same (s : State) (k : Slot) (w : Int) : (s.setSlot k w).getSlot k = w := by cases k <;> rfl

@[simp] theorem State.getSelCell_setSelCell_same (s : State) (c : SelCell) (w : Int) : (s.setSelCell c w).getSelCell c = w := by
  cases c <;> rfl

@[simp] theorem State.getReg_raise (s : State) (f : Fault) (x : Reg) : (s.raise f).getReg x = s.getReg x := by cases x <;> rfl

@[simp] theorem State.getReg_setCell (s : State) (a v : Int) (x : Reg) : (s.setCell a v).getReg x = s.getReg x := by cases x <;> rfl

/-! ### Registers of a state written out: only the five register fields matter -/

/-- The value that a register's name picks among the register fields. -/
def Reg.pick (x : Reg) (l : List Int) (v4 v5 v6 v7 : Int) : Int :=
  match x with
  | .rpg k => l.getD k 0
  | .stkTop => v4
  | .stkBot => v5
  | .pc => v6
  | .ir => v7

/-- The general registers after a register was overwritten. -/
def Reg.put (x : Reg) (l : List Int) (v : Int) : List Int :=
  match x with
  | .rpg k => l.set k v
  | .stkTop => l
  | .stkBot => l
  | .pc => l
  | .ir => l

@[simp] theorem Reg.put_rpg (k : Nat) (l : List Int) (v : Int) : (Reg.rpg k).put l v = l.set k v := rfl

@[simp] theorem Reg.pick_rpg (k : Nat) (l : List Int) (v4 v5 v6 v7 : Int) : (Reg.rpg k).pick l v4 v5 v6 v7 = l[k]?.getD 0 := by
  simp [Reg.pick]

theorem State.getReg_eq_pick (s : State) (x : Reg) : s.getReg x = x.pick s.rpg s.stkTop s.stkBot s.pc s.ir := by cases x <;> rfl

/-- Overwriting a register, field by field. -/
theorem State.setReg_eq (s : State) (x : Reg) (v : Int) :
    s.setReg x v = { s with rpg := x.put s.rpg v,
                            stkTop := if x = .stkTop then v else s.stkTop,
                            stkBot := if x = .stkBot then v else s.stkBot,
                            pc := if x = .pc then v else s.pc,
                            ir := if x = .ir then v else s.ir } := by
  cases x <;> rfl

end Sys2Proof.Machine
end

