-- ==== Sys2Proof/Laws/Word.lean ====
section
/-! SUPPORT. Wrapping (R6, R148): the wrapped value is in range and congruent, and wrapping twice is wrapping once. -/

namespace Sys2Proof

/-- A wrapped value is a value (R6). -/
theorem wrap_inWidth {w : Nat} (hw : 0 < w) (v : Int) : InWidth w (wrap w v) := by
  obtain ⟨k, rfl⟩ : ∃ k, w = k + 1 := ⟨w - 1, by omega⟩
  have h2 : (2 : Nat) ^ (k + 1) = 2 * 2 ^ k := by rw [Nat.pow_succ]; omega
  have hp : 0 < (2 : Nat) ^ k := Nat.pow_pos (by decide)
  simp only [InWidth, wrap, Nat.add_sub_cancel, h2]
  have h1 := Int.le_bmod (x := v) (m := 2 * 2 ^ k) (by omega)
  have h3 := Int.bmod_lt (x := v) (m := 2 * 2 ^ k) (by omega)
  omega

/-- A value is its own wrapping. -/
theorem wrap_of_inWidth {w : Nat} (hw : 0 < w) {v : Int} (h : InWidth w v) : wrap w v = v := by
  obtain ⟨k, rfl⟩ : ∃ k, w = k + 1 := ⟨w - 1, by omega⟩
  have h2 : (2 : Nat) ^ (k + 1) = 2 * 2 ^ k := by rw [Nat.pow_succ]; omega
  simp only [InWidth, Nat.add_sub_cancel] at h
  simp only [wrap, h2]
  exact Int.bmod_eq_of_le (by omega) (by omega)

/-- 0 is a value of every width. -/
theorem zero_inWidth (w : Nat) : InWidth w 0 := by
  have : 0 < (2 : Nat) ^ (w - 1) := Nat.pow_pos (by decide)
  constructor <;> omega

/-- Only the wrapped value of an addend matters. -/
@[simp] theorem wrap_wrap_add (w : Nat) (a b : Int) : wrap w (wrap w a + b) = wrap w (a + b) := by simp [wrap]

@[simp] theorem wrap_wrap (w : Nat) (a : Int) : wrap w (wrap w a) = wrap w a := by simp [wrap]

/-- The wrapped value is congruent to the value modulo `2^w` (R6). -/
theorem wrap_congr (w : Nat) (a : Int) : wrap w a % ((2 ^ w : Nat) : Int) = a % ((2 ^ w : Nat) : Int) := Int.bmod_emod

end Sys2Proof
end

