-- ==== Sys2Proof/Laws/Memory.lean ====
section
/-! SUPPORT. Memory: every operation keeps the canonical form, reading after writing, and equal contents are equal memories. -/

namespace Sys2Proof.Machine

/-- The bounds of R66 on an address are bounds on the number of its cell. -/
theorem validAddr_iff (n : Nat) (a : Int) : validAddr n a = true ↔ 0 ≤ a ∧ a.toNat < n := by
  simp only [validAddr, decide_eq_true_eq]
  omega

namespace Memory

theorem read_nil (a : Nat) : Memory.read [] a = unlisted := rfl

theorem read_cons (k : Nat) (v : Int) (rest : Memory) (a : Nat) :
    Memory.read ((k, v) :: rest) a = if k = a then v else Memory.read rest a := rfl

/-- Below every listed address, a cell is unlisted. -/
theorem read_below {m : Memory} {a : Nat} (h : ∀ c ∈ m, a < c.1) : Memory.read m a = unlisted := by
  induction m with
  | nil => rfl
  | cons c rest ih =>
    obtain ⟨k, v⟩ := c
    have hk : a < k := h (k, v) (by simp)
    rw [read_cons, if_neg (by omega), ih fun c hc => h c (by simp [hc])]

theorem entry_read_same (a : Nat) (v : Int) {rest : Memory} (h : ∀ c ∈ rest, a < c.1) :
    Memory.read (entry a v rest) a = v := by
  unfold entry
  split
  · rw [read_below h]; simp_all
  · simp [read_cons]

theorem entry_read_ne {a b : Nat} (v : Int) (rest : Memory) (h : b ≠ a) :
    Memory.read (entry a v rest) b = Memory.read rest b := by
  unfold entry
  split
  · rfl
  · rw [read_cons, if_neg (Ne.symm h)]

theorem mem_entry {a : Nat} {v : Int} {rest : Memory} {c : Nat × Int} (h : c ∈ entry a v rest) :
    c = (a, v) ∧ v ≠ unlisted ∨ c ∈ rest := by
  unfold entry at h
  split at h
  · exact .inr h
  · rcases List.mem_cons.mp h with h | h
    · exact .inl ⟨h, ‹_›⟩
    · exact .inr h

theorem mem_write {m : Memory} {a : Nat} {v : Int} {c : Nat × Int} (h : c ∈ Memory.write m a v) :
    c = (a, v) ∧ v ≠ unlisted ∨ c ∈ m := by
  induction m with
  | nil => simpa using mem_entry h
  | cons d rest ih =>
    obtain ⟨k, w⟩ := d
    unfold write at h
    split at h
    · exact mem_entry h
    · split at h
      · rcases mem_entry h with h | h
        · exact .inl h
        · exact .inr (List.mem_cons_of_mem _ h)
      · rcases List.mem_cons.mp h with h | h
        · exact .inr (h ▸ List.mem_cons_self)
        · rcases ih h with h | h
          · exact .inl h
          · exact .inr (List.mem_cons_of_mem _ h)

/-- A list of cells in rising order. -/
abbrev Sorted (m : Memory) : Prop := m.Pairwise (fun x y => x.1 < y.1)

theorem entry_sorted {a : Nat} {v : Int} {rest : Memory} (hs : Sorted rest) (h : ∀ c ∈ rest, a < c.1) :
    Sorted (entry a v rest) := by
  unfold entry
  split
  · exact hs
  · exact List.pairwise_cons.mpr ⟨h, hs⟩

theorem write_sorted {m : Memory} (a : Nat) (v : Int) (hs : Sorted m) : Sorted (Memory.write m a v) := by
  induction m with
  | nil => exact entry_sorted hs (by simp)
  | cons d rest ih =>
    obtain ⟨k, w⟩ := d
    obtain ⟨hk, hr⟩ := List.pairwise_cons.mp hs
    unfold write
    split
    · refine entry_sorted hs fun c hc => ?_
      rcases List.mem_cons.mp hc with rfl | hc
      · assumption
      · have := hk c hc; simp only at this; omega
    · split
      · subst_vars; exact entry_sorted hr hk
      · refine List.pairwise_cons.mpr ⟨fun c hc => ?_, ih hr⟩
        rcases mem_write hc with ⟨rfl, -⟩ | hc
        · simp only; omega
        · exact hk c hc

/-- Writing a cell of the memory keeps the canonical form. -/
theorem write_wf {n : Nat} {m : Memory} {a : Nat} (v : Int) (h : wf n m) (ha : a < n) : wf n (Memory.write m a v) := by
  refine ⟨write_sorted a v h.1, fun c hc => ?_⟩
  rcases mem_write hc with ⟨rfl, hv⟩ | hc
  · exact ⟨ha, hv⟩
  · exact h.2 c hc

/-- Memory filled with one value is in canonical form. -/
theorem filled_wf (n : Nat) (v : Int) : wf n (filled n v) := by
  unfold filled
  split
  · simp [wf]
  · refine ⟨?_, fun c hc => ?_⟩
    · exact List.pairwise_map.mpr (List.pairwise_lt_range)
    · obtain ⟨a, ha, rfl⟩ := List.mem_map.mp hc
      exact ⟨List.mem_range.mp ha, ‹_›⟩

/-- Loading an image that fits keeps the canonical form. -/
theorem writeImage_wf {n w : Nat} {m m' : Memory} {a : Nat} {image : List Int} (h : wf n m) (ha : a + image.length ≤ n)
    (hw : Memory.writeImage w m a image = some m') : wf n m' := by
  induction image generalizing m a with
  | nil => simp only [writeImage, Option.some.injEq] at hw; exact hw ▸ h
  | cons v rest ih =>
    simp only [writeImage] at hw
    split at hw
    · simp only [List.length_cons] at ha
      exact ih (write_wf _ h (by omega)) (by omega) hw
    · cases hw

/-- A read of the cell just written gives the value written. -/
theorem read_write_same {m : Memory} (a : Nat) (v : Int) (hs : Sorted m) : Memory.read (Memory.write m a v) a = v := by
  induction m with
  | nil => exact entry_read_same a v (by simp)
  | cons d rest ih =>
    obtain ⟨k, w⟩ := d
    obtain ⟨hk, hr⟩ := List.pairwise_cons.mp hs
    unfold write
    split
    · refine entry_read_same a v fun c hc => ?_
      rcases List.mem_cons.mp hc with rfl | hc
      · assumption
      · have := hk c hc; simp only at this; omega
    · split
      · subst_vars; exact entry_read_same _ v hk
      · rw [read_cons, if_neg (by omega), ih hr]

/-- A write leaves every other cell alone. -/
theorem read_write_ne (m : Memory) {a b : Nat} (v : Int) (h : b ≠ a) :
    Memory.read (Memory.write m a v) b = Memory.read m b := by
  induction m with
  | nil => exact entry_read_ne v [] h
  | cons d rest ih =>
    obtain ⟨k, w⟩ := d
    unfold write
    split
    · exact entry_read_ne v _ h
    · split
      · rw [entry_read_ne v rest h, read_cons, if_neg (by omega)]
      · rw [read_cons, read_cons, ih]

/-- Two memories in canonical form that read the same everywhere are the same data. -/
theorem ext_of_read {k : Nat} {m n : Memory} (hm : wf k m) (hn : wf k n) (h : ∀ a, Memory.read m a = Memory.read n a) : m = n := by
  induction m generalizing n with
  | nil =>
    cases n with
    | nil => rfl
    | cons d rest =>
      obtain ⟨k, w⟩ := d
      have := h k
      rw [read_nil, read_cons, if_pos rfl] at this
      exact absurd this.symm (hn.2 (k, w) (by simp)).2
  | cons c mrest ih =>
    obtain ⟨j, v⟩ := c
    obtain ⟨hmk, hmr⟩ := List.pairwise_cons.mp hm.1
    cases n with
    | nil =>
      have := h j
      rw [read_nil, read_cons, if_pos rfl] at this
      exact absurd this (hm.2 (j, v) (by simp)).2
    | cons d nrest =>
      obtain ⟨k, w⟩ := d
      obtain ⟨hnk, hnr⟩ := List.pairwise_cons.mp hn.1
      have hv := (hm.2 (j, v) (by simp)).2
      have hw := (hn.2 (k, w) (by simp)).2
      have below {a b : Nat} {x : Int} {r : Memory} (hab : a < b) (hr : ∀ c ∈ r, b < c.1) :
          Memory.read ((b, x) :: r) a = unlisted := read_below fun c hc => by
        rcases List.mem_cons.mp hc with rfl | hc
        · exact hab
        · have := hr c hc; omega
      rcases Nat.lt_trichotomy j k with hjk | rfl | hjk
      · have := h j
        rw [read_cons, if_pos rfl, below hjk hnk] at this
        exact absurd this hv
      · have hvw : v = w := by simpa [read_cons] using h j
        subst hvw
        congr 1
        refine ih ⟨hmr, fun c hc => hm.2 c (by simp [hc])⟩ ⟨hnr, fun c hc => hn.2 c (by simp [hc])⟩ fun a => ?_
        by_cases ha : j = a
        · subst ha; rw [read_below hmk, read_below hnk]
        · simpa [read_cons, ha] using h a
      · have := h k
        rw [read_cons (k := k), if_pos rfl, below hjk hmk] at this
        exact absurd this.symm hw

/-- A memory of values in range reads as values in range. -/
theorem read_inWidth {w : Nat} {m : Memory} (h : ∀ c ∈ m, InWidth w c.2) (a : Nat) : InWidth w (Memory.read m a) := by
  induction m with
  | nil => exact zero_inWidth w
  | cons c rest ih =>
    obtain ⟨k, v⟩ := c
    rw [read_cons]
    split
    · exact h (k, v) (by simp)
    · exact ih fun c hc => h c (by simp [hc])

end Memory

/-- The cell an address names reads back what was written to it. -/
theorem State.cell_setCell_same (s : State) (a v : Int) {n : Nat} (h : Memory.wf n s.mem) : (s.setCell a v).cell a = v :=
  Memory.read_write_same _ _ h.1

/-- Every other cell reads as before. -/
theorem State.cell_setCell_ne (s : State) {a b : Int} (v : Int) (h : b.toNat ≠ a.toNat) : (s.setCell a v).cell b = s.cell b :=
  Memory.read_write_ne _ _ h

end Sys2Proof.Machine
end

