-- ==== Sys2Proof/Laws/Micro.lean ====
section
/-! SUPPORT. What each shared operation can do, said once: the register transfers, the memory transfers, PCINC, OPFETCH, FETCH. -/

namespace Sys2Proof.Machine

/-! ### The addresses PCINC forms -/

/-- Counting on from an address PCINC formed is counting from where it began. -/
theorem State.after_of_pc {s t : State} {k : Int} (hc : t.cfg = s.cfg) (hp : t.pc = s.after k) (l : Int) :
    t.after l = s.after (k + l) := by simp [State.after, hc, hp, Int.add_assoc]

/-- An address PCINC formed is a value (R6). -/
theorem State.after_inWidth (s : State) (hw : 0 < s.cfg.w) (k : Int) : InWidth s.cfg.w (s.after k) := wrap_inWidth hw _

/-! ### Register transfers -/

/-- A register goes onto a bus only if it is an integer register wired to it (R114, R118). -/
theorem State.readOnto_ok {s t : State} {e : FileEntry} {b : Bus} (h : s.readOnto e b = .ok t) :
    ∃ x, e = .reg x ∧ e.wired b = true ∧ t = s.putBus b (s.getReg x) := by
  cases e with
  | flags => cases h
  | reg x =>
    simp only [State.readOnto] at h
    split at h
    · exact ⟨x, rfl, ‹_›, by cases h; rfl⟩
    · cases h

/-- A bus goes into a register only if it is an integer register wired to it (R115, R118). -/
theorem State.storeFrom_ok {s t : State} {e : FileEntry} {b : Bus} (h : s.storeFrom e b = .ok t) :
    ∃ x, e = .reg x ∧ e.wired b = true ∧ t = s.setReg x (s.getBus b) := by
  cases e with
  | flags => cases h
  | reg x =>
    simp only [State.storeFrom] at h
    split at h
    · exact ⟨x, rfl, ‹_›, by cases h; rfl⟩
    · cases h

theorem State.readOnto_wired (s : State) {x : Reg} {b : Bus} (h : (FileEntry.reg x).wired b = true) :
    s.readOnto (.reg x) b = .ok (s.putBus b (s.getReg x)) := by simp [State.readOnto, h]

theorem State.storeFrom_wired (s : State) {x : Reg} {b : Bus} (h : (FileEntry.reg x).wired b = true) :
    s.storeFrom (.reg x) b = .ok (s.setReg x (s.getBus b)) := by simp [State.storeFrom, h]

theorem State.readOnto_unwired (s : State) {e : FileEntry} {b : Bus} (h : e.wired b = false) :
    s.readOnto e b = .error .configurationFault := by cases e <;> simp [State.readOnto, h]

theorem State.storeFrom_unwired (s : State) {e : FileEntry} {b : Bus} (h : e.wired b = false) :
    s.storeFrom e b = .error .configurationFault := by cases e <;> simp [State.storeFrom, h]

/-- The registers of the sequences' named transfers are wired to every bus (R28). -/
@[simp] theorem FileEntry.wired_rpg (k : Nat) (b : Bus) : (FileEntry.reg (.rpg k)).wired b = true := rfl
@[simp] theorem FileEntry.wired_pc (b : Bus) : (FileEntry.reg .pc).wired b = true := rfl
@[simp] theorem FileEntry.wired_ir (b : Bus) : (FileEntry.reg .ir).wired b = true := rfl

/-- EXT reaches every integer register (R28). -/
@[simp] theorem FileEntry.wired_ext (x : Reg) : (FileEntry.reg x).wired .ext = true := by cases x <;> rfl

theorem State.rselRead_some (s : State) {e : FileEntry} (b : Bus) (h : resolve s.cfg s.sel = some e) : s.rselRead b = s.readOnto e b := by
  simp [State.rselRead, h]

theorem State.rselStore_some (s : State) {e : FileEntry} (b : Bus) (h : resolve s.cfg s.sel = some e) : s.rselStore b = s.storeFrom e b := by
  simp [State.rselStore, h]

theorem State.rselRead_none (s : State) (b : Bus) (h : resolve s.cfg s.sel = none) : s.rselRead b = .error .registerIndexFault := by
  simp [State.rselRead, h]

theorem State.rselStore_none (s : State) (b : Bus) (h : resolve s.cfg s.sel = none) : s.rselStore b = .error .registerIndexFault := by
  simp [State.rselStore, h]

/-! ### Memory transfers -/

theorem State.memRead_valid (s : State) (h : validAddr s.cfg.memsize s.ext = true) : s.memRead = .ok { s with ext := s.cell s.ext } := by
  simp [State.memRead, h]

theorem State.memRead_invalid (s : State) (h : validAddr s.cfg.memsize s.ext = false) : s.memRead = .error .fatalAddressing := by
  simp [State.memRead, h]

theorem State.memStd_valid (s : State) (h : validAddr s.cfg.memsize s.memAL = true) : s.memStd = .ok (s.setCell s.memAL s.ext) := by
  simp [State.memStd, h]

theorem State.memStd_invalid (s : State) (h : validAddr s.cfg.memsize s.memAL = false) : s.memStd = .error .fatalAddressing := by
  simp [State.memStd, h]

/-- After `FLAGS.bit` the selector memory answers the cell the bit names: the branch multiplexer (R190). -/
theorem State.selmemRead_flagsBit (s : State) (i : FlagBit) :
    (s.flagsBit i).selmemRead = .ok { s with ext := if s.flags.bit i then s.selmem1 else s.selmem0 } := by
  cases h : s.flags.bit i <;> simp [State.selmemRead, State.flagsBit, bitWord, selCell?, State.getSelCell, h]

/-! ### Running a sequence -/

@[simp] theorem runSeq_nil (s : State) : runSeq [] s = s := rfl

theorem runSeq_cons_ok {m : MicroOp} {s t : State} (rest : List MicroOp) (h : m.apply s = .ok t) :
    runSeq (m :: rest) s = runSeq rest t := by simp [runSeq, h]

theorem runSeq_cons_error {m : MicroOp} {s : State} {f : Fault} (rest : List MicroOp) (h : m.apply s = .error f) :
    runSeq (m :: rest) s = s.raise f := by simp [runSeq, h]

/-- No micro-operation touches RUN or the parameters. -/
theorem MicroOp.apply_run_cfg {m : MicroOp} {s t : State} (h : m.apply s = .ok t) : t.run = s.run ∧ t.cfg = s.cfg := by
  have hrd {e b} (h : s.readOnto e b = .ok t) : t.run = s.run ∧ t.cfg = s.cfg := by
    obtain ⟨x, -, -, rfl⟩ := State.readOnto_ok h; simp
  have hst {e b} (h : s.storeFrom e b = .ok t) : t.run = s.run ∧ t.cfg = s.cfg := by
    obtain ⟨x, -, -, rfl⟩ := State.storeFrom_ok h; simp
  cases m <;> simp only [MicroOp.apply, Except.ok.injEq] at h
  case rd => exact hrd h
  case st => exact hst h
  case rselRd => simp only [State.rselRead] at h; split at h; exacts [hrd h, by cases h]
  case rselSt => simp only [State.rselStore] at h; split at h; exacts [hst h, by cases h]
  case memRead => simp only [State.memRead] at h; split at h <;> cases h; exact ⟨rfl, rfl⟩
  case memStd => simp only [State.memStd] at h; split at h <;> cases h; exact ⟨rfl, rfl⟩
  case selmemRead => simp only [State.selmemRead] at h; split at h <;> cases h; exact ⟨rfl, rfl⟩
  case selmemStd => simp only [State.selmemStd] at h; split at h <;> cases h; simp
  case operandRead => simp only [State.operandRead] at h; split at h <;> cases h; exact ⟨rfl, rfl⟩
  all_goals (subst h; simp [State.selmemSta])

/-- What a sequence leaves of the parameters and of RUN: it ends as it began, or in a fault (R221). -/
theorem runSeq_run_cfg (seq : List MicroOp) (s : State) :
    (runSeq seq s).cfg = s.cfg ∧ ((runSeq seq s).run = s.run ∨ ∃ f, (runSeq seq s).run = .faulted f) := by
  induction seq generalizing s with
  | nil => exact ⟨rfl, .inl rfl⟩
  | cons m rest ih =>
    cases h : m.apply s with
    | error f => rw [runSeq_cons_error rest h]; exact ⟨rfl, .inr ⟨f, rfl⟩⟩
    | ok t =>
      obtain ⟨hr, hc⟩ := MicroOp.apply_run_cfg h
      rw [runSeq_cons_ok rest h, ← hr, ← hc]
      exact ih t

/-- PCINC in front of a sequence (R131). -/
theorem runSeq_pcinc_append (rest : List MicroOp) (s : State) :
    runSeq (pcinc ++ rest) s = runSeq rest { s with pc := s.after 1, int2 := s.after 1, s1 := s.after 1 } := rfl

/-- OPFETCH of a decoded operand in front of a sequence (R132). -/
theorem runSeq_opfetch_operand_append (v : Int) (rest : List MicroOp) (s : State) :
    runSeq (opfetch (.operandRead v) ++ rest) s =
      if validAddr s.cfg.memsize s.pc then runSeq rest { s with ext := v } else { s with ext := s.pc, run := .faulted .fatalAddressing } := by
  cases h : validAddr s.cfg.memsize s.pc <;>
    simp [opfetch, runSeq, MicroOp.apply, State.readOnto, State.operandRead, State.putBus, State.getReg, State.raise, h]

/-- OPFETCH from memory in front of a sequence (R132). -/
theorem runSeq_opfetch_memRead_append (rest : List MicroOp) (s : State) :
    runSeq (opfetch .memRead ++ rest) s =
      if validAddr s.cfg.memsize s.pc then runSeq rest { s with ext := s.cell s.pc } else { s with ext := s.pc, run := .faulted .fatalAddressing } := by
  cases h : validAddr s.cfg.memsize s.pc <;>
    simp [opfetch, runSeq, MicroOp.apply, State.readOnto, State.memRead, State.putBus, State.getReg, State.cell, State.raise, h]

/-! ### One micro-operation in front of a sequence -/

section
variable (rest : List MicroOp) (s : State)

@[simp] theorem runSeq_rd_pc_ext : runSeq (.rd .pc .ext :: rest) s = runSeq rest { s with ext := s.pc } := rfl
@[simp] theorem runSeq_rd_pc_int2 : runSeq (.rd .pc .int2 :: rest) s = runSeq rest { s with int2 := s.pc } := rfl
@[simp] theorem runSeq_st_pc_int2 : runSeq (.st .pc .int2 :: rest) s = runSeq rest { s with pc := s.int2 } := rfl
@[simp] theorem runSeq_rd_ir_ext : runSeq (.rd .ir .ext :: rest) s = runSeq rest { s with ext := s.ir } := rfl
@[simp] theorem runSeq_rd_ir_int1 : runSeq (.rd .ir .int1 :: rest) s = runSeq rest { s with int1 := s.ir } := rfl
@[simp] theorem runSeq_rd_ir_int2 : runSeq (.rd .ir .int2 :: rest) s = runSeq rest { s with int2 := s.ir } := rfl
@[simp] theorem runSeq_rd_rpg0_ext : runSeq (.rd (.rpg 0) .ext :: rest) s = runSeq rest { s with ext := s.rpg.getD 0 0 } := rfl
@[simp] theorem runSeq_rd_rpg0_int1 : runSeq (.rd (.rpg 0) .int1 :: rest) s = runSeq rest { s with int1 := s.rpg.getD 0 0 } := rfl
@[simp] theorem runSeq_rd_rpg0_int2 : runSeq (.rd (.rpg 0) .int2 :: rest) s = runSeq rest { s with int2 := s.rpg.getD 0 0 } := rfl
@[simp] theorem runSeq_st_pc_ext : runSeq (.st .pc .ext :: rest) s = runSeq rest { s with pc := s.ext } := rfl
@[simp] theorem runSeq_st_ir_ext : runSeq (.st .ir .ext :: rest) s = runSeq rest { s with ir := s.ext } := rfl
@[simp] theorem runSeq_st_ir_int2 : runSeq (.st .ir .int2 :: rest) s = runSeq rest { s with ir := s.int2 } := rfl
@[simp] theorem runSeq_st_rpg0_ext : runSeq (.st (.rpg 0) .ext :: rest) s = runSeq rest { s with rpg := s.rpg.set 0 s.ext } := rfl
@[simp] theorem runSeq_st_rpg0_int2 : runSeq (.st (.rpg 0) .int2 :: rest) s = runSeq rest { s with rpg := s.rpg.set 0 s.int2 } := rfl
@[simp] theorem runSeq_selSet : runSeq (.selSet :: rest) s = runSeq rest { s with sel := s.ext } := rfl
@[simp] theorem runSeq_aluSt1_slot0 : runSeq (.aluSt1 .slot0 :: rest) s = runSeq rest { s with s0 := s.int1 } := rfl
@[simp] theorem runSeq_aluSt2_slot1 : runSeq (.aluSt2 .slot1 :: rest) s = runSeq rest { s with s1 := s.int2 } := rfl
@[simp] theorem runSeq_aluRd2_slot1 : runSeq (.aluRd2 .slot1 :: rest) s = runSeq rest { s with int2 := s.s1 } := rfl
@[simp] theorem runSeq_aluAdd : runSeq (.aluAdd :: rest) s = runSeq rest { s with s1 := wrap s.cfg.w (s.s0 + s.s1) } := rfl
@[simp] theorem runSeq_aluSub : runSeq (.aluSub :: rest) s = runSeq rest { s with s1 := wrap s.cfg.w (s.s0 - s.s1) } := rfl
@[simp] theorem runSeq_aluInc : runSeq (.aluInc :: rest) s = runSeq rest { s with s1 := wrap s.cfg.w (s.s1 + 1) } := rfl
@[simp] theorem runSeq_flagsUpd : runSeq (.flagsUpd :: rest) s = runSeq rest { s with flags := flagsOf s.int2 } := rfl
@[simp] theorem runSeq_memSta : runSeq (.memSta :: rest) s = runSeq rest { s with memAL := s.ext } := rfl
@[simp] theorem runSeq_selmemSt_cell0 : runSeq (.selmemSt .cell0 :: rest) s = runSeq rest { s with selmem0 := s.ext } := rfl
@[simp] theorem runSeq_selmemSt_cell1 : runSeq (.selmemSt .cell1 :: rest) s = runSeq rest { s with selmem1 := s.ext } := rfl

/-- The branch multiplexer in front of a sequence (R190). -/
@[simp] theorem runSeq_flagsBit_selmemRead (i : FlagBit) : runSeq (.flagsBit i :: .selmemRead :: rest) s =
    runSeq rest { s with ext := if s.flags.bit i then s.selmem1 else s.selmem0 } := by
  simp only [runSeq, MicroOp.apply, State.selmemRead_flagsBit]

@[simp] theorem runSeq_memRead : runSeq (.memRead :: rest) s =
    if validAddr s.cfg.memsize s.ext then runSeq rest { s with ext := s.cell s.ext } else s.raise .fatalAddressing := by
  cases h : validAddr s.cfg.memsize s.ext <;> simp [runSeq, MicroOp.apply, State.memRead, h]

@[simp] theorem runSeq_operandRead (v : Int) : runSeq (.operandRead v :: rest) s =
    if validAddr s.cfg.memsize s.ext then runSeq rest { s with ext := v } else s.raise .fatalAddressing := by
  cases h : validAddr s.cfg.memsize s.ext <;> simp [runSeq, MicroOp.apply, State.operandRead, h]

@[simp] theorem runSeq_memStd : runSeq (.memStd :: rest) s =
    if validAddr s.cfg.memsize s.memAL then runSeq rest (s.setCell s.memAL s.ext) else s.raise .fatalAddressing := by
  cases h : validAddr s.cfg.memsize s.memAL <;> simp [runSeq, MicroOp.apply, State.memStd, h]

/-- A selected register onto a bus, in front of a sequence: the copy, or the fault of R117 or R118. -/
theorem runSeq_rselRd (b : Bus) : runSeq (.rselRd b :: rest) s =
    match resolve s.cfg s.sel with
    | none => s.raise .registerIndexFault
    | some .flags => s.raise .configurationFault
    | some (.reg x) =>
      if (FileEntry.reg x).wired b then runSeq rest (s.putBus b (s.getReg x)) else s.raise .configurationFault := by
  simp only [runSeq, MicroOp.apply, State.rselRead]
  rcases resolve s.cfg s.sel with _ | (x | _) <;> simp only [State.readOnto]
  cases (FileEntry.reg x).wired b <;> rfl

/-- A bus into a selected register, in front of a sequence: the copy, or the fault of R117 or R118. -/
theorem runSeq_rselSt (b : Bus) : runSeq (.rselSt b :: rest) s =
    match resolve s.cfg s.sel with
    | none => s.raise .registerIndexFault
    | some .flags => s.raise .configurationFault
    | some (.reg x) =>
      if (FileEntry.reg x).wired b then runSeq rest (s.setReg x (s.getBus b)) else s.raise .configurationFault := by
  simp only [runSeq, MicroOp.apply, State.rselStore]
  rcases resolve s.cfg s.sel with _ | (x | _) <;> simp only [State.storeFrom]
  cases (FileEntry.reg x).wired b <;> rfl

end

end Sys2Proof.Machine
end

