-- ==== Sys2Proof/Laws/PerInstr.lean ====
section
/-! SUPPORT. Facts about every instruction as syntax, one lemma per constructor: an encoded instruction has the length its opcode gives it,
and its operand cells assemble back to it (R90, R91). -/

namespace Sys2Proof.Laws.EncodedLength

/-- R91, R97: the opcode cell and the mnemonic's operand cells, nothing more; R92: the cells give the instruction back. -/
def Statement (i : Sys2Proof.Instr) : Prop :=
  (Sys2Proof.encode i).length = 1 + i.mnemonic.operandCount ∧ Sys2Proof.assemble i.mnemonic i.operands = some i

theorem add (addr : Int) : Statement (.add addr) := ⟨rfl, rfl⟩
theorem sub (addr : Int) : Statement (.sub addr) := ⟨rfl, rfl⟩
theorem addRegReg (regA regB : Int) : Statement (.addRegReg regA regB) := ⟨rfl, rfl⟩
theorem subRegReg (regA regB : Int) : Statement (.subRegReg regA regB) := ⟨rfl, rfl⟩
theorem addMemReg (addr regId : Int) : Statement (.addMemReg addr regId) := ⟨rfl, rfl⟩
theorem subMemReg (addr regId : Int) : Statement (.subMemReg addr regId) := ⟨rfl, rfl⟩
theorem addRegMem (regId addr : Int) : Statement (.addRegMem regId addr) := ⟨rfl, rfl⟩
theorem subRegMem (regId addr : Int) : Statement (.subRegMem regId addr) := ⟨rfl, rfl⟩
theorem addImmReg (imm regId : Int) : Statement (.addImmReg imm regId) := ⟨rfl, rfl⟩
theorem subImmReg (imm regId : Int) : Statement (.subImmReg imm regId) := ⟨rfl, rfl⟩
theorem moveMemReg (addr regId : Int) : Statement (.moveMemReg addr regId) := ⟨rfl, rfl⟩
theorem moveRegMem (regId addr : Int) : Statement (.moveRegMem regId addr) := ⟨rfl, rfl⟩
theorem moveRegReg (regA regB : Int) : Statement (.moveRegReg regA regB) := ⟨rfl, rfl⟩
theorem moveImmReg (imm regId : Int) : Statement (.moveImmReg imm regId) := ⟨rfl, rfl⟩
theorem inc : Statement (.inc) := ⟨rfl, rfl⟩
theorem incReg (regId : Int) : Statement (.incReg regId) := ⟨rfl, rfl⟩
theorem jmp (addr : Int) : Statement (.jmp addr) := ⟨rfl, rfl⟩
theorem jz (addr : Int) : Statement (.jz addr) := ⟨rfl, rfl⟩
theorem jn (addr : Int) : Statement (.jn addr) := ⟨rfl, rfl⟩
theorem jeq (regA regB addr : Int) : Statement (.jeq regA regB addr) := ⟨rfl, rfl⟩
theorem jneq (regA regB addr : Int) : Statement (.jneq regA regB addr) := ⟨rfl, rfl⟩
theorem jgt (regA regB addr : Int) : Statement (.jgt regA regB addr) := ⟨rfl, rfl⟩
theorem jlw (regA regB addr : Int) : Statement (.jlw regA regB addr) := ⟨rfl, rfl⟩
theorem read (addr : Int) : Statement (.read addr) := ⟨rfl, rfl⟩
theorem store (addr : Int) : Statement (.store addr) := ⟨rfl, rfl⟩
theorem ldi (imm : Int) : Statement (.ldi imm) := ⟨rfl, rfl⟩
theorem imulMemReg : Statement (.imulMemReg) := ⟨rfl, rfl⟩
theorem imulRegMem : Statement (.imulRegMem) := ⟨rfl, rfl⟩
theorem imulRegReg : Statement (.imulRegReg) := ⟨rfl, rfl⟩

end Sys2Proof.Laws.EncodedLength
end

