-- ==== Sys2Proof/Tests/Slice0.lean ====
section
/-! SUPPORT. Tests: ill-formed operands, words written out from R93, one step per instruction (expected values from spec/95_test_vectors.md, whose
vector each theorem names), the counts of R256, and a witness for the hypotheses of each statement. -/

namespace Sys2Proof.Tests

open Sys2Proof.Machine Sys2Proof.Claims

/-! ### Well-formedness: one ill-formed term for each check (R92) -/

theorem test_address_past_memory_ill_formed : (Instr.add 128).wellFormed defaultConfig = false := by decide
theorem test_negative_address_ill_formed : (Instr.store (-1)).wellFormed defaultConfig = false := by decide
theorem test_last_address_well_formed : (Instr.jmp 127).wellFormed defaultConfig = true := by decide
theorem test_register_index_past_list_ill_formed : (Instr.moveRegReg 9 0).wellFormed defaultConfig = false := by decide
theorem test_negative_register_index_ill_formed : (Instr.moveImmReg 5 (-3)).wellFormed defaultConfig = false := by decide
theorem test_flags_operand_ill_formed : (Instr.moveMemReg 20 8).wellFormed defaultConfig = false := by decide
theorem test_stack_register_ill_formed_on_internal_bus : (Instr.incReg 4).wellFormed defaultConfig = false := by decide
theorem test_immediate_out_of_width_ill_formed : (Instr.ldi 0x80000000).wellFormed defaultConfig = false := by decide
theorem test_stack_register_well_formed_on_ext : (Instr.moveRegMem 5 20).wellFormed defaultConfig = true := by decide

/-! ### Decoding: for every constructor the cells written out from R90, R92 and R93 -/

theorem test_decode_accumulator :
    decode [0, 20] = .ok (.add 20, []) ∧ decode [1, 20] = .ok (.sub 20, []) ∧ decode [14, 7] = .ok (.inc, [7]) :=
  ⟨rfl, rfl, rfl⟩

theorem test_decode_two_operand_arithmetic :
    decode [2, 1, 2] = .ok (.addRegReg 1 2, []) ∧ decode [3, 1, 2] = .ok (.subRegReg 1 2, []) ∧
    decode [4, 20, 1] = .ok (.addMemReg 20 1, []) ∧ decode [5, 20, 1] = .ok (.subMemReg 20 1, []) ∧
    decode [6, 1, 20] = .ok (.addRegMem 1 20, []) ∧ decode [7, 1, 20] = .ok (.subRegMem 1 20, []) ∧
    decode [8, -7, 1] = .ok (.addImmReg (-7) 1, []) ∧ decode [9, 7, 1] = .ok (.subImmReg 7 1, []) ∧
    decode [15, 2] = .ok (.incReg 2, []) :=
  ⟨rfl, rfl, rfl, rfl, rfl, rfl, rfl, rfl, rfl⟩

theorem test_decode_moves :
    decode [10, 20, 2] = .ok (.moveMemReg 20 2, []) ∧ decode [11, 2, 20] = .ok (.moveRegMem 2 20, []) ∧
    decode [12, 0, 4] = .ok (.moveRegReg 0 4, []) ∧ decode [13, -9, 3] = .ok (.moveImmReg (-9) 3, []) ∧
    decode [23, 5] = .ok (.read 5, []) ∧ decode [24, 5] = .ok (.store 5, []) ∧ decode [25, -7] = .ok (.ldi (-7), []) :=
  ⟨rfl, rfl, rfl, rfl, rfl, rfl, rfl⟩

theorem test_decode_jumps :
    decode [16, 20] = .ok (.jmp 20, []) ∧ decode [17, 40] = .ok (.jz 40, []) ∧ decode [18, 40] = .ok (.jn 40, []) ∧
    decode [19, 0, 1, 50] = .ok (.jeq 0 1 50, []) ∧ decode [20, 0, 1, 50] = .ok (.jneq 0 1 50, []) ∧
    decode [21, 0, 1, 50] = .ok (.jgt 0 1 50, []) ∧ decode [22, 0, 1, 50] = .ok (.jlw 0 1 50, []) :=
  ⟨rfl, rfl, rfl, rfl, rfl, rfl, rfl⟩

theorem test_decode_multiply_placeholders :
    decode [26] = .ok (.imulMemReg, []) ∧ decode [27] = .ok (.imulRegMem, []) ∧ decode [28] = .ok (.imulRegReg, []) :=
  ⟨rfl, rfl, rfl⟩

theorem test_decode_rejects :
    decode [] = .error .noOpcodeCell ∧ decode [29] = .error (.unmatchedOpcode 29) ∧
    decode [-0x80000000] = .error (.unmatchedOpcode (-0x80000000)) ∧ decode [6, 1] = .error (.missingOperand .addRegMem) :=
  ⟨rfl, rfl, rfl, rfl⟩

/-- The table's numbering: the opcode cell is bits 31..0, the first operand cell bits 63..32, and so on. -/
theorem test_decode_table_word :
    decodeTableWord 32 16 = some (.jmp 0) ∧
    decodeTableWord 128 0x00000032_00000001_00000000_00000016 = some (.jlw 0 1 50) ∧
    decodeTableWord 32 29 = none := by decide

theorem test_encode : encode (.jlw 0 1 50) = [22, 0, 1, 50] ∧ encode (.subImmReg 7 1) = [9, 7, 1] ∧ encode .inc = [14] := by decide

/-! ### One step -/

/-- The reset state with cells in memory (addresses rising, values not 0). -/
def start (mem : Memory) : State := { State.reset with mem := mem }

/-- The step from a state answers a next state that meets the check. -/
def stepsTo (s : State) (ok : State → Bool) : Bool :=
  match step s with
  | .next t => ok t
  | .fault _ => false
  | .refused _ => false

/-- RUNNING with PC and the flags as given. -/
def runsAt (pc : Int) (z n : Bool) (t : State) : Bool := decide (t.run = .running ∧ t.pc = pc ∧ t.flags = ⟨z, n⟩)

/-- FAULTED with the fault and PC as given. -/
def stopped (f : Fault) (pc : Int) (t : State) : Bool := decide (t.run = .faulted f ∧ t.pc = pc)

/-- A2: the sum wraps. -/
theorem test_add_wraps : stepsTo { start [(1, 20), (20, 30), (30, 1)] with rpg := [0x7fffffff, 0, 0, 0] }
    (fun t => runsAt 2 false true t && decide (t.getReg (.rpg 0) = -0x80000000)) = true := by decide

/-- A7: the pointer cell holds a bad address. -/
theorem test_add_bad_pointer : stepsTo { start [(1, 20), (20, -1)] with rpg := [5, 0, 0, 0] }
    (fun t => stopped .fatalAddressing 1 t && decide (t.getReg (.rpg 0) = 5)) = true := by decide

/-- A4: the memory value is the subtrahend. -/
theorem test_sub_order : stepsTo { start [(0, 1), (1, 20), (20, 30), (30, 7)] with rpg := [5, 0, 0, 0] }
    (fun t => runsAt 2 false true t && decide (t.getReg (.rpg 0) = -2)) = true := by decide

/-- A14: PC as destination takes the sum before the closing increment. -/
theorem test_addRegReg_into_pc : stepsTo { start [(0, 2), (2, 6)] with rpg := [10, 0, 0, 0] }
    (fun t => runsAt 13 false false t && decide (t.getReg (.rpg 0) = 10)) = true := by decide

/-- A16: a stack register has no transfer on an internal bus. -/
theorem test_addRegReg_stack_register : stepsTo { start [(0, 2), (1, 4)] with rpg := [10, 0, 0, 0], stkTop := 1 }
    (stopped .configurationFault 1) = true := by decide

/-- A11: the first operand is the minuend. -/
theorem test_subRegReg_order : stepsTo { start [(0, 3), (1, 1), (2, 2)] with rpg := [0, 3, 4, 0] }
    (fun t => runsAt 3 false true t && decide (t.getReg (.rpg 2) = -1 ∧ t.getReg (.rpg 1) = 3)) = true := by decide

/-- A34: IR as operand is the bridged memory value. -/
theorem test_addMemReg_into_ir : stepsTo (start [(0, 4), (1, 20), (2, 7), (20, 7)])
    (fun t => runsAt 3 false false t && decide (t.ir = 14)) = true := by decide

/-- A31: the memory value is the minuend. -/
theorem test_subMemReg_order : stepsTo { start [(0, 5), (1, 20), (2, 1), (20, 7)] with rpg := [0, 5, 0, 0] }
    (fun t => runsAt 3 false false t && decide (t.getReg (.rpg 1) = 2)) = true := by decide

/-- A43: an instruction may store into its own cells. -/
theorem test_addRegMem_own_cell : stepsTo { start [(0, 6), (1, 1), (2, 2)] with rpg := [0, 5, 0, 0] }
    (fun t => runsAt 3 false false t && decide (t.mem = [(0, 6), (1, 1), (2, 7)] ∧ t.getReg (.rpg 1) = 5)) = true := by decide

/-- A42: a zero result removes the cell from the list. -/
theorem test_subRegMem_zero : stepsTo { start [(0, 7), (1, 1), (2, 20), (20, 7)] with rpg := [0, 7, 0, 0] }
    (fun t => runsAt 3 true false t && decide (t.mem = [(0, 7), (1, 1), (2, 20)])) = true := by decide

/-- A53: -1 + 1 is 0. -/
theorem test_addImmReg_zero : stepsTo { start [(0, 8), (1, -1), (2, 1)] with rpg := [0, 1, 0, 0] }
    (fun t => runsAt 3 true false t && decide (t.getReg (.rpg 1) = 0)) = true := by decide

/-- A52: 0 minus the smallest value wraps to itself. -/
theorem test_subImmReg_wraps : stepsTo { start [(0, 9), (2, 1)] with rpg := [0, -0x80000000, 0, 0] }
    (fun t => runsAt 3 false true t && decide (t.getReg (.rpg 1) = -0x80000000)) = true := by decide

/-- A67: `inc` in the last cell leaves PC past memory without a fault. -/
theorem test_inc_in_last_cell : stepsTo { start [(127, 14)] with pc := 127, rpg := [41, 0, 0, 0], flags := ⟨true, false⟩ }
    (fun t => runsAt 128 false false t && decide (t.getReg (.rpg 0) = 42)) = true := by decide

/-- A64: PC incremented as a register, then closed. -/
theorem test_incReg_pc : stepsTo (start [(0, 15), (1, 6)]) (runsAt 3 false false) = true := by decide

/-- M2: a stack register is a destination over EXT; no flag changes. -/
theorem test_moveMemReg_stack : stepsTo { start [(0, 10), (1, 20), (2, 4), (20, 77)] with flags := ⟨true, false⟩ }
    (fun t => runsAt 3 true false t && decide (t.stkTop = 77)) = true := by decide

/-- M4: FLAGS is not selectable. -/
theorem test_moveMemReg_flags : stepsTo (start [(0, 10), (1, 20), (2, 8), (20, 77)]) (stopped .configurationFault 2) = true := by decide

/-- M12: IR is read after FETCH: it is the opcode. -/
theorem test_moveRegMem_ir : stepsTo (start [(0, 11), (1, 7), (2, 20)])
    (fun t => runsAt 3 false false t && decide (Memory.read t.mem 20 = 11)) = true := by decide

/-- M18: the bad register is reported before the bad address. -/
theorem test_moveRegMem_fault_order : stepsTo (start [(0, 11), (1, 9), (2, 128)])
    (fun t => stopped .registerIndexFault 2 t && decide (t.memAL = 128)) = true := by decide

/-- M23: PC read as the first operand is p+1. -/
theorem test_moveRegReg_reads_pc : stepsTo (start [(0, 12), (1, 6)])
    (fun t => runsAt 3 false false t && decide (t.getReg (.rpg 0) = 1)) = true := by decide

/-- M28: a negative index names no register. -/
theorem test_moveRegReg_negative_index : stepsTo { start [(0, 12), (2, -3)] with rpg := [10, 0, 0, 0] }
    (stopped .registerIndexFault 2) = true := by decide

/-- M31: an immediate into PC is a jump to value + 1. -/
theorem test_moveImmReg_pc : stepsTo (start [(0, 13), (1, 60), (2, 6)]) (runsAt 61 false false) = true := by decide

/-- S1: `read` is doubly indirect. -/
theorem test_read : stepsTo (start [(0, 23), (1, 5), (2, 99), (5, 2)])
    (fun t => runsAt 2 false false t && decide (t.getReg (.rpg 0) = 99)) = true := by decide

/-- M53: the pointer cell may name itself. -/
theorem test_store_own_pointer : stepsTo { start [(0, 24), (1, 5), (5, 5)] with rpg := [44, 0, 0, 0] }
    (fun t => runsAt 2 false false t && decide (t.mem = [(0, 24), (1, 5), (5, 44)])) = true := by decide

/-- M51: a bad pointer is seen at the data phase, with the datum on EXT. -/
theorem test_store_bad_pointer : stepsTo { start [(0, 24), (1, 5), (5, 200)] with rpg := [44, 0, 0, 0] }
    (fun t => stopped .fatalAddressing 1 t && decide (t.memAL = 200 ∧ t.ext = 44)) = true := by decide

/-- M60: `ldi` leaves the flags. -/
theorem test_ldi : stepsTo { start [(0, 25), (1, -7)] with flags := ⟨true, false⟩ }
    (fun t => runsAt 2 true false t && decide (t.getReg (.rpg 0) = -7)) = true := by decide

/-- M61: the operand cell lies past memory. -/
theorem test_ldi_past_memory : stepsTo { start [(127, 25)] with pc := 127 }
    (fun t => stopped .fatalAddressing 128 t && decide (t.ext = 128)) = true := by decide

/-- B1: `jmp` is indirect by default. -/
theorem test_jmp_indirect : stepsTo (start [(0, 16), (1, 20), (20, 64)]) (runsAt 64 false false) = true := by decide

/-- B2: `jmp` under `JMP_MODE = direct`. -/
theorem test_jmp_direct :
    stepsTo { start [(0, 16), (1, 20), (20, 64)] with cfg := { defaultConfig with jmpMode := .direct } } (runsAt 20 false false) = true := by
  decide

/-- B12: a taken target is not range-checked. -/
theorem test_jz_taken : stepsTo { start [(0, 17), (1, 500)] with flags := ⟨true, false⟩ } (runsAt 500 true false) = true := by decide

/-- B14: the fall-through may be past memory. -/
theorem test_jz_not_taken : stepsTo { start [(126, 17), (127, 5)] with pc := 126 } (runsAt 128 false false) = true := by decide

/-- B10, B11: `jn` tests NEGATIVE, not ZERO. -/
theorem test_jn :
    stepsTo { start [(10, 18), (11, 40)] with pc := 10, flags := ⟨false, true⟩ } (runsAt 40 false true) = true ∧
    stepsTo { start [(10, 18), (11, 40)] with pc := 10, flags := ⟨true, false⟩ } (runsAt 12 true false) = true := by decide

/-- B21, B22: `jeq`. -/
theorem test_jeq :
    stepsTo { start [(0, 19), (2, 1), (3, 50)] with rpg := [5, 3, 0, 0] } (runsAt 4 false false) = true ∧
    stepsTo { start [(0, 19), (2, 1), (3, 50)] with rpg := [4, 4, 0, 0] } (runsAt 50 true false) = true := by decide

/-- B24, B25: `jneq`. -/
theorem test_jneq :
    stepsTo { start [(0, 20), (2, 1), (3, 50)] with rpg := [5, 3, 0, 0] } (runsAt 50 false false) = true ∧
    stepsTo { start [(0, 20), (2, 1), (3, 50)] with rpg := [4, 4, 0, 0] } (runsAt 4 true false) = true := by decide

/-- B28, B33: `jgt` is taken on equality, and judges the wrapped difference. -/
theorem test_jgt :
    stepsTo { start [(0, 21), (2, 1), (3, 50)] with rpg := [4, 4, 0, 0] } (runsAt 50 true false) = true ∧
    stepsTo { start [(0, 21), (2, 1), (3, 50)] with rpg := [0x7fffffff, -1, 0, 0] } (runsAt 4 false true) = true := by decide

/-- B29, B32: `jlw`, again on the wrapped difference. -/
theorem test_jlw :
    stepsTo { start [(0, 22), (2, 1), (3, 50)] with rpg := [3, 5, 0, 0] } (runsAt 50 false true) = true ∧
    stepsTo { start [(0, 22), (2, 1), (3, 50)] with rpg := [-0x80000000, 1, 0, 0] } (runsAt 4 false false) = true := by decide

/-- F6, F7 and R209: the placeholders under `IMUL_MODE = fault`. -/
theorem test_imul_fault :
    stepsTo (start [(0, 26)]) (stopped .notImplemented 0) = true ∧ stepsTo (start [(0, 27)]) (stopped .notImplemented 0) = true ∧
    stepsTo (start [(0, 28)]) (stopped .notImplemented 0) = true := by decide

/-- R209: the placeholders under the two other modes. -/
theorem test_imul_nop :
    stepsTo { start [(0, 26)] with cfg := { defaultConfig with imulMode := .nopAdvance } } (runsAt 1 false false) = true ∧
    stepsTo { start [(0, 27)] with cfg := { defaultConfig with imulMode := .nopStay } } (runsAt 0 false false) = true := by decide

/-- S5 (F1): an unmatched opcode halts and leaves everything but IR and EXT. -/
theorem test_unmatched_halts : stepsTo { start [(0, 255)] with rpg := [7, 0, 0, 0] }
    (fun t => decide (t = { start [(0, 255)] with rpg := [7, 0, 0, 0], ir := 255, ext := 255, run := .halted })) = true := by decide

/-- F5: the reset memory, all zero, runs `add 0`. -/
theorem test_reset_runs_add : stepsTo State.reset (runsAt 2 true false) = true := by decide

theorem test_fetch_word_runs : stepsTo (State.reset.withFetchWord 64 0x00000005_00000019) (fun t => decide (t.getReg (.rpg 0) = 5 ∧ t.pc = 2)) = true := by
  decide

/-! ### Other parameters (R5): the smallest width and register file, a memory of 12 cells; RPG0, RPG1 are 0 and 1, FLAGS is 6 -/

def small : Config := { defaultConfig with w := 9, memsize := 12, ngpr := 2 }

/-- The reset state of that machine with cells in memory. -/
def startSmall (mem : Memory) : State := { State.resetOf small with mem := mem }

/-- R5: the sizes the shape of the machine fixes, and `NREG = NGPR + 5`. -/
theorem test_sizes :
    [SelCell.cell0, .cell1].length = SELMEMSIZE ∧ [FlagBit.zero, .negative].length = NFLAGS ∧ defaultOpcodeMap.length = NOPC ∧
    defaultConfig.nreg = 9 ∧ small.nreg = 7 ∧ (registerFile 2).length = 7 := by decide

/-- R21: the list shifts with NGPR. -/
theorem test_registerFile_of_two :
    registerFile 2 = [.reg (.rpg 0), .reg (.rpg 1), .reg .stkTop, .reg .stkBot, .reg .pc, .reg .ir, .flags] := by decide

/-- R6, D1: 255 + 1 wraps to -256 in nine bits. -/
theorem test_inc_wraps_at_nine_bits : stepsTo { startSmall [(0, 14)] with rpg := [255, 0] }
    (fun t => runsAt 1 false true t && decide (t.getReg (.rpg 0) = -256)) = true := by decide

/-- R21: index 2 is StkTOP, index 4 is PC, and index 7 names nothing, when NGPR = 2. -/
theorem test_indices_of_two_registers :
    stepsTo (startSmall [(0, 13), (1, 9), (2, 2)]) (fun t => runsAt 3 false false t && decide (t.stkTop = 9)) = true ∧
    stepsTo (startSmall [(0, 13), (1, 9), (2, 4)]) (runsAt 10 false false) = true ∧
    stepsTo (startSmall [(0, 13), (1, 9), (2, 7)]) (stopped .registerIndexFault 2) = true := by decide

/-- R66: the memory ends at MEMSIZE. -/
theorem test_memory_of_twelve_cells :
    stepsTo { startSmall [(11, 25)] with pc := 11 } (stopped .fatalAddressing 12) = true ∧
    (Instr.jmp 12).wellFormed small = false ∧ (Instr.jmp 11).wellFormed small = true ∧ (Instr.incReg 2).wellFormed small = false := by decide

/-- R21: with six general registers, index 5 is RPG5, which has its reset value and can be written. -/
theorem test_six_registers :
    stepsTo { State.resetOf { defaultConfig with ngpr := 6 } with mem := [(0, 13), (1, 9), (2, 5)] }
      (fun t => runsAt 3 false false t && decide (t.rpg = [0, 0, 0, 0, 0, 9])) = true := by decide

/-! ### The counts of R256 -/

/-- The number of micro-operations of a mnemonic's sequence under the default parameters. -/
def count (c : Config) (m : Mnemonic) : Option Nat := (microSeq c m).map List.length

theorem test_counts_arithmetic :
    [Mnemonic.add, .sub, .addRegReg, .subRegReg, .addMemReg, .subMemReg, .addRegMem, .subRegMem, .addImmReg, .subImmReg, .inc, .incReg].map
      (count defaultConfig) =
    [some 23, some 23, some 29, some 29, some 30, some 30, some 35, some 35, some 29, some 29, some 11, some 19] := by decide

theorem test_counts_moves :
    [Mnemonic.moveMemReg, .moveRegMem, .moveRegReg, .moveImmReg, .read, .store, .ldi].map (count defaultConfig) =
    [some 24, some 23, some 25, some 23, some 15, some 16, some 13] := by decide

theorem test_counts_jumps :
    [Mnemonic.jmp, .jz, .jn, .jeq, .jneq, .jgt, .jlw].map (count defaultConfig) =
    [some 9, some 18, some 18, some 41, some 41, some 41, some 41] ∧
    count { defaultConfig with jmpMode := .direct } .jmp = some 8 := by decide

theorem test_counts_placeholders :
    count defaultConfig .imulMemReg = none ∧ count { defaultConfig with imulMode := .nopAdvance } .imulRegMem = some 5 ∧
    count { defaultConfig with imulMode := .nopStay } .imulRegReg = some 0 ∧ fetchSeq.length = 3 := by decide

/-! ### Witnesses: a state and operands that meet the hypotheses of each statement, clause by clause, at the ends of their ranges -/

/-- A small program area at cells 10..13, a pointer chain 20 -> 30, a bad pointer in 21, and the last cell in use. -/
def here : State :=
  { start [(10, 4), (11, 20), (12, 1), (13, 50), (20, 30), (21, 128), (30, 7), (127, 14)] with pc := 10, rpg := [5, 3, 0, 0] }

/-- The same with PC so near the end that operand cell 1, 2 or 3 is the first past memory. -/
def near (pc : Int) : State := { here with pc := pc }

theorem witness_ResetValues :
    (Reg.ir ≠ Reg.pc ∧ here.resetInput.has .ir = true) ∧ (Reg.rpg 3 ≠ Reg.pc ∧ here.resetInput.has (.rpg 3) = true) ∧ 127 < here.cfg.memsize := by
  decide

theorem witness_LoadPlacesImage_fits :
    let image := List.replicate 127 (-(2 ^ 31) : Int) ++ [2 ^ 31 - 1]
    image.length ≤ defaultConfig.memsize ∧ ∀ v ∈ image, InWidth defaultConfig.w v := by
  refine ⟨by simp [defaultConfig], fun v hv => ?_⟩
  rcases List.mem_append.mp hv with h | h
  · rw [List.eq_of_mem_replicate h]; decide
  · rw [List.mem_singleton.mp h]; decide

theorem witness_LoadPlacesImage_refused :
    defaultConfig.memsize < (List.replicate 129 (0 : Int)).length ∧ (∃ v ∈ [(2 ^ 31 : Int)], ¬InWidth defaultConfig.w v) ∧
    ∃ v ∈ [(-(2 ^ 31) - 1 : Int)], ¬InWidth defaultConfig.w v := by
  refine ⟨by simp [defaultConfig], by decide, by decide⟩

/-- WrapGivesTheValueInRange: the narrowest width, where 256 wraps to -256, and a value of that width at either end. -/
theorem witness_WrapGivesTheValueInRange :
    (0 < 9 ∧ WrapsTo 9 256 (-256) ∧ wrap 9 256 = -256) ∧ InWidth 9 255 ∧ InWidth 9 (-256) ∧ ¬InWidth 9 256 := by
  refine ⟨⟨by decide, ⟨by decide, by decide⟩, by decide⟩, by decide, by decide, by decide⟩

/-- RegisterFileOrder: every clause under NGPR = 4. -/
theorem witness_RegisterFileOrder :
    (3 < defaultConfig.ngpr ∧ (3 : Int) = (3 : Nat)) ∧ (4 : Int) = defaultConfig.ngpr ∧ (5 : Int) = (defaultConfig.ngpr : Int) + 1 ∧
    (6 : Int) = (defaultConfig.ngpr : Int) + 2 ∧ (7 : Int) = (defaultConfig.ngpr : Int) + 3 ∧ (8 : Int) = (defaultConfig.ngpr : Int) + 4 ∧
    (-1 : Int) < 0 ∧ (defaultConfig.ngpr : Int) + 5 ≤ 9 := by decide

theorem witness_FetchLoadsIr :
    (near 0).valid (near 0).pc = true ∧ (near 127).valid (near 127).pc = true ∧ (near 128).valid (near 128).pc = false ∧ (near (-1)).valid (near (-1)).pc = false := by
  decide

theorem witness_RegisterTransfersCopy :
    (here.has (.rpg 3) = true ∧ (FileEntry.reg (.rpg 3)).wired .int1 = true) ∧ (here.has .ir = true ∧ (FileEntry.reg .ir).wired .int2 = true) ∧
    here.has .stkBot = true ∧ (FileEntry.reg .stkBot).wired .ext = true := by decide

theorem witness_AluComputesWrapped : 0 < here.cfg.w := by decide

theorem witness_MemReadReplacesAddress :
    (0 ≤ (0 : Int) ∧ (127 : Int) < here.cfg.memsize) ∧ (-1 : Int) < 0 ∧ (here.cfg.memsize : Int) ≤ 128 ∧
    here.valid ({ here with ext := 20 }).ext = true ∧ here.valid (here.cell 20) = true := by decide

theorem witness_StoreIsTwoPhase :
    (0 ≤ ({ here with memAL := 127 }).memAL ∧ ({ here with memAL := 127 }).memAL < (here.cfg.memsize : Int)) ∧ Memory.wf here.cfg.memsize here.mem ∧
    (here.cfg.memsize : Int) ≤ ({ here with memAL := 128 }).memAL ∧ ({ here with memAL := -1 }).memAL < 0 := by decide

theorem witness_SelectedTransferChecks :
    ({ here with sel := -1 }).sel < 0 ∧ (here.cfg.ngpr : Int) + 5 ≤ ({ here with sel := 9 }).sel ∧
    ({ here with sel := 8 }).sel = (here.cfg.ngpr : Int) + 4 ∧
    (({ here with sel := 5 }).sel = (here.cfg.ngpr : Int) + 1 ∧ Bus.int2 ≠ .ext) ∧ (0 < here.cfg.ngpr ∧ here.sel = ((0 : Nat) : Int)) ∧
    (3 < here.cfg.ngpr ∧ ({ here with sel := 3 }).sel = ((3 : Nat) : Int)) ∧ ({ here with sel := 4 }).sel = (here.cfg.ngpr : Int) ∧
    ({ here with sel := 6 }).sel = (here.cfg.ngpr : Int) + 2 ∧ ({ here with sel := 7 }).sel = (here.cfg.ngpr : Int) + 3 := by decide

theorem witness_FlagAndSelectorPorts :
    here.ext = 0 ∧ ({ here with ext := 1 }).ext = 1 ∧ (-1 : Int) < 0 ∧ 2 ≤ (2 : Int) ∧ here.selAL = 0 := by
  decide

theorem witness_SequencesKeepTheDiscipline : ∃ seq, microSeq defaultConfig .addRegMem = some seq := ⟨_, rfl⟩

theorem witness_OneBusPerMicroOp : ∃ t, (MicroOp.rselRd .ext).apply { here with sel := 4 } = .ok t := ⟨_, rfl⟩

/-- DecodeOfEncode, EncodeOfDecode, UnmatchedOpcodeHalts: the default numbering is a bijection, and so is another one. -/
theorem witness_table_is_bijection : defaultConfig.tableWf ∧ Config.tableWf { defaultConfig with opcodeMap := defaultOpcodeMap.reverse } := by
  refine ⟨⟨by decide, by decide, fun m => ?_⟩, by decide, by decide, fun m => ?_⟩ <;> cases m <;> decide

/-- The default parameters are legal, and so are the smallest the spec allows (D1, D2). -/
theorem witness_parameters_legal : defaultConfig.wf ∧ small.wf := by
  refine ⟨⟨witness_table_is_bijection.1, by decide, by decide, by decide, by decide, by decide⟩,
    ⟨witness_table_is_bijection.1, by decide, by decide, by decide, by decide, by decide⟩⟩

theorem witness_EncodeOfDecode_clauses :
    decodeWith defaultOpcodeMap [25, 7, 1] = .ok (.ldi 7, [1]) ∧ decodeWith defaultOpcodeMap [] = .error .noOpcodeCell ∧
    decodeWith defaultOpcodeMap [29] = .error (.unmatchedOpcode 29) ∧ decodeWith defaultOpcodeMap [19, 0, 1] = .error (.missingOperand .jeq) :=
  ⟨rfl, rfl, rfl, rfl⟩

theorem witness_StepRunsDecoded :
    here.run = .running ∧ here.valid here.pc = true ∧
    decodeWith here.cfg.opcodeMap [here.cell here.pc, here.operandCell 1, here.operandCell 2, here.operandCell 3] =
      .ok (.addMemReg 20 1, [50]) ∧ here.valid (here.after 3) = true :=
  ⟨rfl, rfl, rfl, rfl⟩

/-- `inc` in the last cell: no operand cell exists, and the instruction still decodes. -/
theorem witness_StepRunsDecoded_last_cell :
    (near 127).valid (near 127).pc = true ∧
    decodeWith defaultOpcodeMap [(near 127).cell 127, (near 127).operandCell 1, (near 127).operandCell 2, (near 127).operandCell 3] =
      .ok (.inc, [0, 0, 0]) ∧ (near 127).valid ((near 127).after 1) = false :=
  ⟨rfl, rfl, rfl⟩

theorem witness_UnmatchedOpcodeHalts :
    ((near 13).valid (near 13).pc = true ∧ 29 ≤ ((near 13).cell (near 13).pc)) ∧
    (let s := start [(0, 29)]; s.run = .running ∧ s.valid s.pc = true ∧ 29 ≤ (s.cell s.pc)) ∧
    (let s := start [(0, -1)]; (s.cell s.pc) < 0) ∧
    stepsTo (start [(0, 29)]) (fun t => decide (t.run = .halted)) = true := by decide

theorem witness_FetchOutOfRangeFaults :
    (near 128).run = .running ∧ 128 ≤ (near 128).pc ∧ (near (-1)).pc < 0 := by decide

theorem witness_TerminalStatesStay : here.halt.run ≠ .running ∧ (here.raise .fatalAddressing).run ≠ .running := by decide

theorem witness_StepKeepsInvariant : here.Inv ∧ ∃ t, step here = .next t :=
  ⟨⟨by decide, witness_parameters_legal.1, rfl, by decide, by decide⟩, _, rfl⟩

theorem witness_HiddenStateNeverInfluences :
    let other := { here with ext := 1, int1 := 2, int2 := 3, s0 := 4, s1 := 5, sel := 6, memAL := 7, selmem0 := 8, selmem1 := 9, selAL := 10, ir := 11 }
    here ≠ other ∧ here.visible = other.visible ∧ ∃ t, step here = .next t :=
  ⟨by decide, by decide, _, rfl⟩

/-- AddSubAccumulate, RegRegArithmetic, MemRegArithmetic, RegMemArithmetic, ImmRegArithmetic, Increments: both operand cells can be read, register 1 is wired to every bus, 20 is an address and holds one. -/
theorem witness_arithmetic_operands :
    here.valid (here.after 1) = true ∧ here.valid (here.after 2) = true ∧ here.valid 20 = true ∧ here.valid (here.cell 20) = true ∧
    Selects here .int1 1 (.rpg 1) ∧ Selects here .int2 1 (.rpg 1) :=
  ⟨rfl, rfl, rfl, rfl, ⟨rfl, rfl⟩, ⟨rfl, rfl⟩⟩

/-- The same statements: the registers at the ends of the list that the internal buses reach. -/
theorem witness_arithmetic_operands_ends : Selects here .int1 0 (.rpg 0) ∧ Selects here .int1 7 .ir ∧ Selects here .int2 0 (.rpg 0) ∧ Selects here .int2 6 .pc :=
  ⟨⟨rfl, rfl⟩, ⟨rfl, rfl⟩, ⟨rfl, rfl⟩, ⟨rfl, rfl⟩⟩

/-- The same statements: the last cells of memory. -/
theorem witness_arithmetic_operands_last_cells :
    (near 125).valid ((near 125).after 1) = true ∧ (near 125).valid ((near 125).after 2) = true ∧ here.valid 127 = true ∧ (near 125).valid ((near 125).cell 127) = true := by
  decide

/-- MoveMemRegCopies, MoveRegMemStores, MoveRegRegCopies, MoveImmRegLoads, AccumulatorLoadStore. -/
theorem witness_move_operands :
    here.valid (here.after 1) = true ∧ here.valid (here.after 2) = true ∧ here.valid 20 = true ∧ here.valid (here.cell 20) = true ∧
    resolve here.cfg 0 = some (.reg (.rpg 0)) ∧ resolve here.cfg 4 = some (.reg .stkTop) ∧ resolve here.cfg 7 = some (.reg .ir) := by decide

theorem witness_StoreSeenByNextFetch :
    Memory.wf here.cfg.memsize here.mem ∧ here.valid (here.after 1) = true ∧ here.valid (here.after 2) = true ∧
    here.valid (here.after 3) = true ∧ resolve here.cfg 1 = some (.reg (.rpg 1)) ∧
    ∃ t, exec (.moveRegMem 1 (here.after 3)) here = .next t :=
  ⟨by decide, by decide, by decide, by decide, by decide, _, rfl⟩

theorem witness_JmpLoadsPc :
    here.valid (here.after 1) = true ∧ (here.cfg.jmpMode = .indirect ∧ here.valid 20 = true) ∧
    ({ here with cfg := { defaultConfig with jmpMode := .direct } }).cfg.jmpMode = .direct := by decide

theorem witness_FlagJumpsSelect : here.valid (here.after 1) = true ∧ (near 126).valid ((near 126).after 1) = true := by decide

theorem witness_CompareJumpsSelect :
    here.valid (here.after 1) = true ∧ here.valid (here.after 2) = true ∧ here.valid (here.after 3) = true ∧
    (near 124).valid ((near 124).after 3) = true ∧ Selects here .int1 0 (.rpg 0) ∧ Selects here .int2 1 (.rpg 1) :=
  ⟨rfl, rfl, rfl, rfl, ⟨rfl, rfl⟩, ⟨rfl, rfl⟩⟩

theorem witness_ImulFollowsMode :
    Instr.imulRegMem ∈ [Instr.imulMemReg, .imulRegMem, .imulRegReg] ∧ here.cfg.imulMode = .fault ∧
    ({ here with cfg := { defaultConfig with imulMode := .nopAdvance } }).cfg.imulMode = .nopAdvance ∧
    ({ here with cfg := { defaultConfig with imulMode := .nopStay } }).cfg.imulMode = .nopStay := by decide

theorem witness_FirstOperandPastMemoryFaults : (Instr.jeq 0 1 50).operands ≠ [] ∧ (near 127).valid ((near 127).after 1) = false := by decide

theorem witness_LaterOperandPastMemoryFaults :
    ((Instr.addMemReg 20 1).wellFormed defaultConfig = true ∧ (near 126).valid ((near 126).after 1) = true ∧ 2 ≤ (Instr.addMemReg 20 1).operands.length ∧
      (near 126).valid ((near 126).after 2) = false) ∧
    ((Instr.jlw 0 1 50).wellFormed defaultConfig = true ∧ (near 125).valid ((near 125).after 1) = true ∧ (near 125).valid ((near 125).after 2) = true ∧
      (near 125).valid ((near 125).after 3) = false ∧ resolve here.cfg 0 = some (.reg (.rpg 0)) ∧ resolve here.cfg 1 = some (.reg (.rpg 1)) ∧
      Instr.jlw 0 1 50 ∈ [Instr.jeq 0 1 50, .jneq 0 1 50, .jgt 0 1 50, .jlw 0 1 50]) := by decide

theorem witness_OperandAddressFaults :
    here.valid (here.after 1) = true ∧ here.valid 128 = false ∧ here.valid (-1) = false ∧ here.cfg.jmpMode = .indirect := by decide

theorem witness_SecondIndirectionFaults : here.valid (here.after 1) = true ∧ here.valid 21 = true ∧ here.valid (here.cell 21) = false := by decide

theorem witness_FirstRegisterOperandFaults :
    here.valid (here.after 1) = true ∧ regFault here.cfg .int1 9 = some .registerIndexFault ∧ regFault here.cfg .int1 (-1) = some .registerIndexFault ∧
    regFault here.cfg .int1 4 = some .configurationFault ∧ regFault here.cfg .int2 5 = some .configurationFault ∧
    regFault here.cfg .ext 8 = some .configurationFault ∧ regFault here.cfg .ext 9 = some .registerIndexFault := by decide

theorem witness_SecondRegisterOperandFaults :
    here.valid (here.after 1) = true ∧ here.valid (here.after 2) = true ∧ here.valid 20 = true ∧ resolve here.cfg 1 = some (.reg (.rpg 1)) ∧
    (regFault here.cfg .int2 5 = some .configurationFault ∧ regFault here.cfg .int1 1 = none) ∧ regFault here.cfg .int2 9 = some .registerIndexFault ∧
    regFault here.cfg .ext 8 = some .configurationFault := by decide

theorem witness_StoringFormsFault :
    here.valid (here.after 1) = true ∧ here.valid (here.after 2) = true ∧ (here.valid 128 = false ∧ Selects here .int1 1 (.rpg 1)) ∧
    regFault here.cfg .ext 9 = some .registerIndexFault ∧ (here.valid (-1) = false ∧ resolve here.cfg 5 = some (.reg .stkBot)) :=
  ⟨rfl, rfl, ⟨rfl, rfl, rfl⟩, rfl, rfl, rfl⟩

theorem witness_FaultedInstructionStoresNothing :
    here.run = .running ∧ ∃ t, exec (.store 21) here = .next t ∧ t.run = .faulted .fatalAddressing :=
  ⟨rfl, _, rfl, rfl⟩

theorem witness_LegalOperandsNeverMisselect :
    here.run = .running ∧ (Instr.moveRegReg 7 4).wellFormed defaultConfig = true ∧ (Instr.incReg 7).wellFormed defaultConfig = true ∧
    ∃ t, exec (.moveRegReg 7 4) here = .next t :=
  ⟨rfl, rfl, rfl, _, rfl⟩

/-- RegisterArithmeticFrame: each clause with a next state that completes. -/
theorem witness_RegisterArithmeticFrame :
    (∃ t, exec (.sub 20) here = .next t ∧ t.run = .running) ∧ (∃ t, exec (.addRegReg 0 7) here = .next t ∧ t.run = .running) ∧
    (∃ t, exec (.subMemReg 20 0) here = .next t ∧ t.run = .running) ∧ (∃ t, exec .inc here = .next t ∧ t.run = .running) ∧
    ∃ t, exec (.incReg 6) here = .next t ∧ t.run = .running :=
  ⟨⟨_, rfl, rfl⟩, ⟨_, rfl, rfl⟩, ⟨_, rfl, rfl⟩, ⟨_, rfl, rfl⟩, _, rfl, rfl⟩

theorem witness_RegisterMoveFrame :
    (∃ t, exec (.moveRegReg 0 4) here = .next t ∧ t.run = .running) ∧ ∃ t, exec (.read 20) here = .next t ∧ t.run = .running :=
  ⟨⟨_, rfl, rfl⟩, _, rfl, rfl⟩

theorem witness_StoreFrame :
    (∃ t, exec (.subRegMem 0 127) here = .next t ∧ t.run = .running) ∧ (∃ t, exec (.moveRegMem 5 0) here = .next t ∧ t.run = .running) ∧
    ∃ t, exec (.store 20) here = .next t ∧ t.run = .running :=
  ⟨⟨_, rfl, rfl⟩, ⟨_, rfl, rfl⟩, _, rfl, rfl⟩

theorem witness_JumpFrame :
    (∃ t, exec (.jmp 20) here = .next t ∧ t.run = .running) ∧ (∃ t, exec (.jn 40) here = .next t ∧ t.run = .running) ∧
    ∃ t, exec (.jgt 0 1 50) here = .next t ∧ t.run = .running :=
  ⟨⟨_, rfl, rfl⟩, ⟨_, rfl, rfl⟩, _, rfl, rfl⟩

theorem witness_ImulFrame : ∃ t, exec .imulRegReg { here with cfg := { defaultConfig with imulMode := .nopAdvance } } = .next t ∧ t.pc = 11 :=
  ⟨_, rfl, rfl⟩

theorem witness_AdvanceLaw :
    here.run = .running ∧ isJump (.addMemReg 20 1) = false ∧ isImul (.addMemReg 20 1) = false ∧ Reg.pc ∉ destination here.cfg (.addMemReg 20 1) ∧
    ∃ t, exec (.addMemReg 20 1) here = .next t ∧ t.run = .running :=
  ⟨rfl, rfl, rfl, by decide, _, rfl, rfl⟩

theorem witness_MoveFamilyIsolation :
    (isMoveFamily (.store 20) = true ∧ ∃ t, exec (.store 20) here = .next t ∧ t.run = .running) ∧
    (isMove (.incReg 1) = false ∧ storesToMemory (.incReg 1) = false ∧ ∃ t, exec (.incReg 1) here = .next t ∧ t.run = .running) :=
  ⟨⟨rfl, _, rfl, rfl⟩, rfl, rfl, _, rfl, rfl⟩

theorem witness_FlagReadersAndWriters :
    here.run = .running ∧ (writesFlags (.jgt 0 1 50) = true ∧ ∃ t, exec (.jgt 0 1 50) here = .next t ∧ t.run = .running) ∧
    (writesFlags (.jz 40) = false ∧ (⟨false, true⟩ : Flags).zero = here.flags.zero ∧ ∃ t, exec (.jz 40) here = .next t) ∧
    (writesFlags (.jn 40) = false ∧ (⟨true, false⟩ : Flags).negative = here.flags.negative ∧ ∃ t, exec (.jn 40) here = .next t) :=
  ⟨rfl, ⟨rfl, _, rfl, rfl⟩, ⟨rfl, rfl, _, rfl⟩, rfl, rfl, _, rfl⟩

end Sys2Proof.Tests
end

section
/-! Proofs about main memory (20_memory.md): the read transfer. -/

namespace Sys2Proof.Machine

/-- The converse half of the bounds of R66: which values name no cell. -/
theorem validAddr_eq_false_iff (n : Nat) (a : Int) : validAddr n a = false ↔ a < 0 ∨ (n : Int) ≤ a := by
  simp only [validAddr, decide_eq_false_iff_not]
  omega

/-- R65, pointer indirection: the second read takes the value the first one left on EXT as its address. -/
theorem runSeq_memRead_memRead (s : State) (h : s.valid s.ext = true) (hp : s.valid (s.cell s.ext) = true) :
    runSeq [.memRead, .memRead] s = { s with ext := s.cell (s.cell s.ext) } := by
  rw [runSeq_memRead, if_pos h, runSeq_memRead, if_pos hp]
  rfl

/-- Settles O12, from what `State.memRead` answers on a valid and on an invalid address. -/
theorem memReadReplacesAddress : Obligations.MemReadReplacesAddress := by
  refine fun s => ⟨fun ⟨h0, hn⟩ => ?inRange, fun hout => ?outside, runSeq_memRead_memRead s⟩
  case inRange => exact s.memRead_valid ((validAddr_iff _ _).mpr ⟨h0, by omega⟩)
  case outside => exact s.memRead_invalid ((validAddr_eq_false_iff _ _).mpr hout)

end Sys2Proof.Machine
end

section
/-! Proofs about decoding and the control loop (30_encoding.md): which opcodes are unmatched, what FETCH leaves, how a step ends. -/

namespace Sys2Proof

/-- R95: outside `0 .. 28` no opcode is matched, whatever the table. -/
theorem decodeOpcode_eq_none (map : List Mnemonic) {op : Int} (h : op < 0 ∨ 29 ≤ op) : decodeOpcode map op = none :=
  if_neg (by simp only [NOPC]; omega)

/-- R94: a table as long as a legal one matches every opcode of `0 .. 28`. -/
theorem exists_decodeOpcode_eq_some {map : List Mnemonic} (hlen : map.length = NOPC) {op : Int} (h0 : 0 ≤ op) (h29 : op < 29) :
    ∃ m, decodeOpcode map op = some m := by
  have hlt : op.toNat < map.length := by simp only [hlen, NOPC]; omega
  exact ⟨map[op.toNat], by rw [decodeOpcode, if_pos ⟨h0, h29⟩, List.getElem?_eq_getElem hlt]⟩

/-- R97: three operand cells are enough for every mnemonic. -/
theorem exists_assemble_eq_some (m : Mnemonic) (a b c : Int) : ∃ i, assemble m [a, b, c] = some i := by
  cases m <;> exact ⟨_, rfl⟩

end Sys2Proof

namespace Sys2Proof.Machine

/-! ### Decoding the window -/

theorem decodeWith_window_unmatched {map : List Mnemonic} {s : State} (h : decodeOpcode map s.ir = none) :
    decodeWith map s.window = .error (.unmatchedOpcode s.ir) := by
  simp [State.window, decodeWith, h]

/-- The window holds a whole instruction, so a matched opcode is decoded. -/
theorem exists_decodeWith_window_eq_ok {map : List Mnemonic} {s : State} {m : Mnemonic} (h : decodeOpcode map s.ir = some m) :
    ∃ i rest, decodeWith map s.window = .ok (i, rest) := by
  obtain ⟨i, hi⟩ := exists_assemble_eq_some m (s.operandCell 1) (s.operandCell 2) (s.operandCell 3)
  simp [State.window, decodeWith, h, hi]

/-! ### FETCH (R133) -/

theorem State.fetch_valid {s : State} (h : s.valid s.pc = true) :
    s.fetch = { s with ext := s.cell s.pc, ir := s.cell s.pc } := by
  rw [State.fetch, fetchSeq, runSeq_rd_pc_ext, runSeq_memRead, if_pos h]
  rfl

/-- A FETCH that completes leaves RUN. -/
theorem State.fetch_valid_run {s : State} (h : s.valid s.pc = true) : s.fetch.run = s.run := by rw [State.fetch_valid h]

theorem State.fetch_invalid {s : State} (h : s.valid s.pc = false) :
    s.fetch = { s with ext := s.pc, run := .faulted .fatalAddressing } := by
  rw [State.fetch, fetchSeq, runSeq_rd_pc_ext, runSeq_memRead, if_neg (by simp [h])]
  rfl

/-! ### EXECUTE -/

theorem runSelected_some (seq : List MicroOp) (s : State) : runSelected (some seq) s = runSeq seq s := rfl

/-- Every instruction has a meaning: it runs what DECODE selected. -/
theorem exec_eq_runSelected (i : Instr) (s : State) : ∃ sel, exec i s = .next (runSelected sel s) := by
  cases i
  case imulMemReg => exact ⟨imulSeq s.cfg.imulMode, rfl⟩
  case imulRegMem => exact ⟨imulSeq s.cfg.imulMode, rfl⟩
  case imulRegReg => exact ⟨imulSeq s.cfg.imulMode, rfl⟩
  all_goals exact ⟨some _, congrArg Host.Outcome.next (runSelected_some _ s).symm⟩

theorem runSelected_run (sel : Option (List MicroOp)) (s : State) :
    (runSelected sel s).run = s.run ∨ ∃ f, (runSelected sel s).run = .faulted f := by
  cases sel with
  | none => exact .inr ⟨.notImplemented, rfl⟩
  | some seq => exact (runSeq_run_cfg seq s).2

/-- EXECUTE leaves RUN as it was, or faulted (R221): no instruction halts. -/
theorem exec_run {i : Instr} {s t : State} (h : exec i s = .next t) : t.run = s.run ∨ ∃ f, t.run = .faulted f := by
  obtain ⟨sel, hsel⟩ := exec_eq_runSelected i s
  obtain rfl : runSelected sel s = t := by simpa [hsel] using h
  exact runSelected_run sel s

/-! ### How a step ends -/

section
variable {s : State} (hrun : s.run = .running)
include hrun

theorem step_pc_invalid (h : s.valid s.pc = false) : step s = .next { s with ext := s.pc, run := .faulted .fatalAddressing } := by
  simp only [step, hrun, State.fetch_invalid h]

theorem step_decoded (h : s.valid s.pc = true) {i : Instr} {rest : List Int}
    (hd : decodeWith s.fetch.cfg.opcodeMap s.fetch.window = .ok (i, rest)) : step s = exec i s.fetch := by
  simp only [step, hrun, State.fetch_valid_run h, hd]

theorem step_rejected (h : s.valid s.pc = true) {r : Reject}
    (hd : decodeWith s.fetch.cfg.opcodeMap s.fetch.window = .error r) : step s = .next s.fetch.halt := by
  simp only [step, hrun, State.fetch_valid_run h, hd]

/-- R95, R226: the exact effect of an unmatched opcode. -/
theorem step_unmatched (h : s.valid s.pc = true) (hop : s.cell s.pc < 0 ∨ 29 ≤ s.cell s.pc) :
    step s = .next { s with ext := s.cell s.pc, ir := s.cell s.pc, run := .halted } := by
  have hir : s.fetch.ir = s.cell s.pc := by rw [State.fetch_valid h]
  have hnone : decodeOpcode s.fetch.cfg.opcodeMap s.fetch.ir = none := decodeOpcode_eq_none _ (by rwa [hir])
  rw [step_rejected hrun h (decodeWith_window_unmatched hnone), State.fetch_valid h, State.halt]

/-- A matched opcode never halts: the step ends in RUNNING or in a fault. -/
theorem step_matched_run (hlen : s.cfg.opcodeMap.length = NOPC) (h : s.valid s.pc = true) (h0 : 0 ≤ s.cell s.pc)
    (h29 : s.cell s.pc < 29) {t : State} (ht : step s = .next t) : t.run = .running ∨ ∃ f, t.run = .faulted f := by
  obtain ⟨m, hm⟩ : ∃ m, decodeOpcode s.fetch.cfg.opcodeMap s.fetch.ir = some m := by
    simpa only [State.fetch_valid h] using exists_decodeOpcode_eq_some hlen h0 h29
  obtain ⟨i, rest, hd⟩ := exists_decodeWith_window_eq_ok hm
  simpa only [State.fetch_valid_run h, hrun] using exec_run ((step_decoded hrun h hd).symm.trans ht)

end

/-- Settles O22: the effect is `step_unmatched`; conversely a PC out of range ends in a fault, and a matched opcode does not halt. -/
theorem unmatchedOpcodeHalts : Obligations.UnmatchedOpcodeHalts := by
  refine fun s hrun => ⟨step_unmatched hrun, fun ⟨hlen, _, _⟩ t ht hhalt => ?_⟩
  cases hv : s.valid s.pc
  case false =>
    obtain rfl : _ = t := by simpa [step_pc_invalid hrun hv] using ht
    cases hhalt
  case true =>
    refine ⟨rfl, ?_⟩
    by_contra hin
    have hend := step_matched_run hrun hlen hv (by omega) (by omega) ht
    simp [hhalt] at hend

end Sys2Proof.Machine
end

section
/-! Proofs about the micro-operations (40_microops.md): the register transfers, the ALU transfers, the ALU's three operations. -/

namespace Sys2Proof.Machine

/-! ### Transfers -/

/-- Settles O8, from what a transfer answers on a wired bus and from the rules of `State.setReg`: what it writes, what it leaves. -/
theorem registerTransfersCopy : Obligations.RegisterTransfersCopy := by
  refine fun s x hx => ⟨s.readOnto_wired (FileEntry.wired_ext x), s.readOnto_wired, s.readOnto_wired, fun b hb => ?store⟩
  case store =>
    have hself := s.getReg_setReg_same (s.getBus b) hx
    have hothers (y) := s.getReg_setReg_ne (x := x) (y := y) (s.getBus b)
    exact ⟨_, s.storeFrom_wired hb, hself, hothers, s.setReg_rpg_length x _, _, _, _, _, _, s.setReg_eq x _⟩

/-- Settles O9: each transfer, on each slot, is by definition the update of its one destination. -/
theorem aluTransfersCopy : Obligations.AluTransfersCopy :=
  fun _ => ⟨rfl, rfl, rfl, rfl, rfl, rfl, rfl, rfl⟩

/-! ### The ALU's operations -/

/-- R6: `wrap` answers the value that `WrapsTo` characterises. -/
theorem wrapsTo_wrap {w : Nat} (hw : 0 < w) (v : Int) : Claims.WrapsTo w v (wrap w v) :=
  ⟨wrap_inWidth hw v, Int.ModEq.dvd (wrap_congr w v).symm⟩

/-- Settles O10: each operation writes the `wrap` of its integer result, and `wrapsTo_wrap` says which value that is. -/
theorem aluComputesWrapped : Obligations.AluComputesWrapped :=
  fun _ hw => ⟨⟨_, rfl, wrapsTo_wrap hw _⟩, ⟨_, rfl, wrapsTo_wrap hw _⟩, _, rfl, wrapsTo_wrap hw _⟩

end Sys2Proof.Machine
end

section
/-! Proofs about the move family (42_move.md): what an instruction neither reads nor writes (R177), read off its micro-sequence. -/

namespace Sys2Proof.Machine

open Sys2Proof.Claims

/-! ### Changes of the state that a sequence does not notice -/

/-- Running the micro-operation before the change `g` or after it is the same: it reads and writes nothing that `g` changes. -/
def MicroOp.CommutesWith (g : State → State) (m : MicroOp) : Prop := ∀ s, m.apply (g s) = (m.apply s).map g

section
variable {g : State → State} (hraise : ∀ s f, (g s).raise f = g (s.raise f))
include hraise

theorem runSeq_commute {seq : List MicroOp} (hseq : ∀ m ∈ seq, m.CommutesWith g) (s : State) :
    runSeq seq (g s) = g (runSeq seq s) := by
  induction seq generalizing s with
  | nil => rfl
  | cons m rest ih =>
    obtain ⟨hm, hrest⟩ := List.forall_mem_cons.mp hseq
    have hg : m.apply (g s) = (m.apply s).map g := hm s
    cases h : m.apply s with
    | error f => rw [h] at hg; rw [runSeq_cons_error rest h, runSeq_cons_error rest hg, hraise]
    | ok t => rw [h] at hg; rw [runSeq_cons_ok rest h, runSeq_cons_ok rest hg, ih hrest]

theorem runSelected_commute {sel : Option (List MicroOp)} (hsel : ∀ seq ∈ sel, ∀ m ∈ seq, m.CommutesWith g) (s : State) :
    runSelected sel (g s) = g (runSelected sel s) := by
  cases sel with
  | none => exact hraise s _
  | some seq => exact runSeq_commute hraise (hsel seq rfl) s

end

/-! An operation with a check commutes with a change that leaves what it checks and commutes with its effect. -/

section
variable {g : State → State} {s : State}

theorem State.rselRead_commute {b : Bus} (hentry : resolve (g s).cfg (g s).sel = resolve s.cfg s.sel)
    (h : ∀ e, (g s).readOnto e b = (s.readOnto e b).map g) : (g s).rselRead b = (s.rselRead b).map g := by
  simp only [rselRead, hentry]
  cases resolve s.cfg s.sel with
  | none => rfl
  | some e => exact h e

theorem State.rselStore_commute {b : Bus} (hentry : resolve (g s).cfg (g s).sel = resolve s.cfg s.sel)
    (h : ∀ e, (g s).storeFrom e b = (s.storeFrom e b).map g) : (g s).rselStore b = (s.rselStore b).map g := by
  simp only [rselStore, hentry]
  cases resolve s.cfg s.sel with
  | none => rfl
  | some e => exact h e

theorem State.memRead_commute (hvalid : validAddr (g s).cfg.memsize (g s).ext = validAddr s.cfg.memsize s.ext)
    (h : { g s with ext := (g s).cell (g s).ext } = g { s with ext := s.cell s.ext }) : (g s).memRead = s.memRead.map g := by
  simp only [memRead, hvalid, h]
  cases validAddr s.cfg.memsize s.ext <;> rfl

theorem State.operandRead_commute (v : Int) (hvalid : validAddr (g s).cfg.memsize (g s).ext = validAddr s.cfg.memsize s.ext)
    (h : { g s with ext := v } = g { s with ext := v }) : (g s).operandRead v = (s.operandRead v).map g := by
  simp only [operandRead, hvalid, h]
  cases validAddr s.cfg.memsize s.ext <;> rfl

theorem State.memStd_commute (hvalid : validAddr (g s).cfg.memsize (g s).memAL = validAddr s.cfg.memsize s.memAL)
    (h : (g s).setCell (g s).memAL (g s).ext = g (s.setCell s.memAL s.ext)) : (g s).memStd = s.memStd.map g := by
  simp only [memStd, hvalid, h]
  cases validAddr s.cfg.memsize s.memAL <;> rfl

theorem State.selmemRead_commute (hcell : selCell? (g s).ext = selCell? s.ext)
    (h : ∀ c, { g s with ext := (g s).getSelCell c } = g { s with ext := s.getSelCell c }) : (g s).selmemRead = s.selmemRead.map g := by
  simp only [selmemRead, hcell, h]
  cases selCell? s.ext <;> rfl

theorem State.selmemStd_commute (hcell : selCell? (g s).selAL = selCell? s.selAL)
    (h : ∀ c, (g s).setSelCell c (g s).ext = g (s.setSelCell c s.ext)) : (g s).selmemStd = s.selmemStd.map g := by
  simp only [selmemStd, hcell, h]
  cases selCell? s.selAL <;> rfl

end

/-! ### FLAGS, S0 and INT1 -/

/-- The state with other values of FLAGS, S0 and INT1. -/
def State.withFlagsS0Int1 (f : Flags) (x y : Int) (s : State) : State := { s with flags := f, s0 := x, int1 := y }

/-- The micro-operations that neither read nor write FLAGS, S0 or INT1. -/
def MicroOp.sparesFlagsS0Int1 : MicroOp → Bool
  | .rd _ b | .st _ b | .rselRd b | .rselSt b => decide (b ≠ .int1)
  | .aluSt2 k | .aluRd2 k => decide (k = .slot1)
  | .aluSt1 _ | .aluRd1 _ | .aluAdd | .aluSub | .flagsUpd | .flagsBit _ => false
  | _ => true

section
variable (f : Flags) (x y : Int) (s : State)

theorem State.readOnto_withFlagsS0Int1 (e : FileEntry) {b : Bus} (hb : b ≠ .int1) :
    (s.withFlagsS0Int1 f x y).readOnto e b = (s.readOnto e b).map (withFlagsS0Int1 f x y) := by
  match e, b, hb with
  | .flags, _, _ => rfl
  | .reg r, .ext, _ => cases r <;> rfl
  | .reg r, .int2, _ => cases r <;> rfl

theorem State.storeFrom_withFlagsS0Int1 (e : FileEntry) {b : Bus} (hb : b ≠ .int1) :
    (s.withFlagsS0Int1 f x y).storeFrom e b = (s.storeFrom e b).map (withFlagsS0Int1 f x y) := by
  match e, b, hb with
  | .flags, _, _ => rfl
  | .reg r, .ext, _ => cases r <;> rfl
  | .reg r, .int2, _ => cases r <;> rfl

theorem MicroOp.commutesWith_withFlagsS0Int1 {m : MicroOp} (h : m.sparesFlagsS0Int1 = true) :
    m.CommutesWith (State.withFlagsS0Int1 f x y) := by
  intro s
  cases m with
  | rd r b => exact s.readOnto_withFlagsS0Int1 f x y (.reg r) (of_decide_eq_true h)
  | st r b => exact s.storeFrom_withFlagsS0Int1 f x y (.reg r) (of_decide_eq_true h)
  | rselRd b => exact State.rselRead_commute rfl fun e => s.readOnto_withFlagsS0Int1 f x y e (of_decide_eq_true h)
  | rselSt b => exact State.rselStore_commute rfl fun e => s.storeFrom_withFlagsS0Int1 f x y e (of_decide_eq_true h)
  | aluSt2 k | aluRd2 k => obtain rfl : k = .slot1 := of_decide_eq_true h; rfl
  | memRead => exact State.memRead_commute rfl rfl
  | operandRead v => exact State.operandRead_commute v rfl rfl
  | memStd => exact State.memStd_commute rfl rfl
  | selmemRead => exact State.selmemRead_commute rfl fun c => by cases c <;> rfl
  | selmemStd => exact State.selmemStd_commute rfl fun c => by cases c <;> rfl
  | selmemSt c => cases c <;> rfl
  | selSet | aluInc | memSta | selmemSta => rfl
  | aluSt1 | aluRd1 | aluAdd | aluSub | flagsUpd | flagsBit => cases h

end

/-! ### The stack registers -/

/-- The state with other values of the stack registers. -/
def State.withStack (x y : Int) (s : State) : State := { s with stkTop := x, stkBot := y }

/-- The micro-operations that reach no stack register: a selected transfer over an internal bus finds it unwired (R24, R28). -/
def MicroOp.sparesStack : MicroOp → Bool
  | .rd r _ | .st r _ => decide (r ≠ .stkTop ∧ r ≠ .stkBot)
  | .rselRd b | .rselSt b => decide (b ≠ .ext)
  | _ => true

/-- A stack register. -/
def FileEntry.isStack : FileEntry → Bool
  | .reg .stkTop | .reg .stkBot => true
  | _ => false

/-- The stack registers are wired to EXT only (R24). -/
theorem FileEntry.isStack_of_wired {e : FileEntry} {b : Bus} (hb : b ≠ .ext) (h : e.wired b = true) : e.isStack = false := by
  match e with
  | .reg .stkTop | .reg .stkBot => exact absurd (of_decide_eq_true h) hb
  | .flags | .reg (.rpg _) | .reg .pc | .reg .ir => rfl

theorem FileEntry.isStack_reg {r : Reg} (h : r ≠ .stkTop ∧ r ≠ .stkBot) : (FileEntry.reg r).isStack = false := by
  obtain ⟨htop, hbot⟩ := h
  match r with
  | .rpg _ | .pc | .ir => rfl

section
variable (x y : Int) (s : State)

theorem State.readOnto_withStack {e : FileEntry} {b : Bus} (h : e.wired b = true → e.isStack = false) :
    (s.withStack x y).readOnto e b = (s.readOnto e b).map (withStack x y) := by
  cases hw : e.wired b with
  | false => rw [readOnto_unwired _ hw, readOnto_unwired _ hw]; rfl
  | true =>
    match e, h hw with
    | .flags, _ => rfl
    | .reg (.rpg _), _ | .reg .pc, _ | .reg .ir, _ => cases b <;> rfl

theorem State.storeFrom_withStack {e : FileEntry} {b : Bus} (h : e.wired b = true → e.isStack = false) :
    (s.withStack x y).storeFrom e b = (s.storeFrom e b).map (withStack x y) := by
  cases hw : e.wired b with
  | false => rw [storeFrom_unwired _ hw, storeFrom_unwired _ hw]; rfl
  | true =>
    match e, h hw with
    | .flags, _ => rfl
    | .reg (.rpg _), _ | .reg .pc, _ | .reg .ir, _ => cases b <;> rfl

theorem MicroOp.commutesWith_withStack {m : MicroOp} (h : m.sparesStack = true) : m.CommutesWith (State.withStack x y) := by
  intro s
  cases m with
  | rd r b => exact s.readOnto_withStack x y fun _ => FileEntry.isStack_reg (of_decide_eq_true h)
  | st r b => exact s.storeFrom_withStack x y fun _ => FileEntry.isStack_reg (of_decide_eq_true h)
  | rselRd b => exact State.rselRead_commute rfl fun _ => s.readOnto_withStack x y (FileEntry.isStack_of_wired (of_decide_eq_true h))
  | rselSt b => exact State.rselStore_commute rfl fun _ => s.storeFrom_withStack x y (FileEntry.isStack_of_wired (of_decide_eq_true h))
  | aluSt1 k | aluRd1 k | aluSt2 k | aluRd2 k => cases k <;> rfl
  | memRead => exact State.memRead_commute rfl rfl
  | operandRead v => exact State.operandRead_commute v rfl rfl
  | memStd => exact State.memStd_commute rfl rfl
  | selmemRead => exact State.selmemRead_commute rfl fun c => by cases c <;> rfl
  | selmemStd => exact State.selmemStd_commute rfl fun c => by cases c <;> rfl
  | selmemSt c => cases c <;> rfl
  | selSet | aluAdd | aluSub | aluInc | flagsUpd | flagsBit | memSta | selmemSta => rfl

end

/-! ### Main memory -/

/-- Only the data phase of a store writes main memory (R67). -/
theorem MicroOp.apply_mem {m : MicroOp} (hm : m ≠ .memStd) {s t : State} (h : m.apply s = .ok t) : t.mem = s.mem := by
  have hrd {e b} (h : s.readOnto e b = .ok t) : t.mem = s.mem := by
    obtain ⟨x, -, -, rfl⟩ := State.readOnto_ok h; simp
  have hst {e b} (h : s.storeFrom e b = .ok t) : t.mem = s.mem := by
    obtain ⟨x, -, -, rfl⟩ := State.storeFrom_ok h; simp
  cases m <;> simp only [MicroOp.apply, Except.ok.injEq] at h
  case rd => exact hrd h
  case st => exact hst h
  case rselRd => simp only [State.rselRead] at h; split at h; exacts [hrd h, by cases h]
  case rselSt => simp only [State.rselStore] at h; split at h; exacts [hst h, by cases h]
  case memStd => exact absurd rfl hm
  case memRead => simp only [State.memRead] at h; split at h <;> cases h; rfl
  case operandRead => simp only [State.operandRead] at h; split at h <;> cases h; rfl
  case selmemRead => simp only [State.selmemRead] at h; split at h <;> cases h; rfl
  case selmemStd => simp only [State.selmemStd] at h; split at h <;> cases h; simp
  all_goals (subst h; simp [State.selmemSta])

theorem runSeq_mem {seq : List MicroOp} (hseq : ∀ m ∈ seq, m ≠ .memStd) (s : State) : (runSeq seq s).mem = s.mem := by
  induction seq generalizing s with
  | nil => rfl
  | cons m rest ih =>
    obtain ⟨hm, hrest⟩ := List.forall_mem_cons.mp hseq
    cases h : m.apply s with
    | error f => rw [runSeq_cons_error rest h, State.raise_mem]
    | ok t => rw [runSeq_cons_ok rest h, ih hrest, MicroOp.apply_mem hm h]

theorem runSelected_mem {sel : Option (List MicroOp)} (hsel : ∀ seq ∈ sel, ∀ m ∈ seq, m ≠ .memStd) (s : State) :
    (runSelected sel s).mem = s.mem := by
  cases sel with
  | none => rfl
  | some seq => exact runSeq_mem (hsel seq rfl) s

/-! ### R177 -/

/-- What R177 allows a micro-operation in the sequence of an instruction. -/
def MicroOp.allowedIn (i : Instr) (m : MicroOp) : Bool :=
  (!isMoveFamily i || m.sparesFlagsS0Int1) && (isMove i || m.sparesStack) && (storesToMemory i || decide (m ≠ .memStd))

theorem MicroOp.allowedIn_iff (i : Instr) (m : MicroOp) : m.allowedIn i = true ↔
    (isMoveFamily i = true → m.sparesFlagsS0Int1 = true) ∧ (isMove i = false → m.sparesStack = true) ∧
    (storesToMemory i = false → m ≠ .memStd) := by
  simp [allowedIn, and_assoc, or_iff_not_imp_left]

/-- What DECODE selects depends on the parameters alone, and consists of micro-operations that R177 allows. -/
theorem exec_selects_allowed (i : Instr) (c : Config) : ∃ sel : Option (List MicroOp),
    (∀ s : State, s.cfg = c → exec i s = .next (runSelected sel s)) ∧ ∀ seq ∈ sel, seq.all (MicroOp.allowedIn i) = true := by
  cases i
  case jmp a =>
    refine ⟨some (jmpSeq c.jmpMode (.operandRead a)), by rintro s rfl; rfl, ?_⟩
    rintro _ ⟨⟩
    cases c.jmpMode <;> rfl
  case imulMemReg | imulRegMem | imulRegReg =>
    refine ⟨imulSeq c.imulMode, by rintro s rfl; rfl, ?_⟩
    cases c.imulMode <;> rintro _ ⟨⟩ <;> rfl
  all_goals
    refine ⟨some _, fun s _ => congrArg Host.Outcome.next (runSelected_some _ s).symm, ?_⟩
    rintro _ ⟨⟩
    rfl

/-- Settles O59: the micro-operations that R177 allows commute with other values of what it protects, and leave memory. -/
theorem moveFamilyIsolation : Obligations.MoveFamilyIsolation := by
  intro s t i hexec
  obtain ⟨sel, hsel, hall⟩ := exec_selects_allowed i s.cfg
  obtain rfl : runSelected sel s = t := by simpa [hsel s rfl] using hexec
  have hallowed {seq} (hseq : seq ∈ sel) {m} (hm : m ∈ seq) :=
    (MicroOp.allowedIn_iff i m).mp (List.all_eq_true.mp (hall seq hseq) m hm)
  have hcommute {g : State → State} (hcfg : (g s).cfg = s.cfg) (hraise : ∀ s f, (g s).raise f = g (s.raise f))
      (hg : ∀ seq ∈ sel, ∀ m ∈ seq, m.CommutesWith g) : exec i (g s) = .next (g (runSelected sel s)) := by
    rw [hsel (g s) hcfg, runSelected_commute hraise hg]
  refine ⟨fun hi f x y => ?family, fun hi x y => ?others, fun hi => ?memory⟩
  case family =>
    refine hcommute (g := State.withFlagsS0Int1 f x y) rfl (fun _ _ => rfl) fun seq hseq m hm => ?_
    obtain ⟨hspares, -, -⟩ := hallowed hseq hm
    exact MicroOp.commutesWith_withFlagsS0Int1 f x y (hspares hi)
  case others =>
    refine hcommute (g := State.withStack x y) rfl (fun _ _ => rfl) fun seq hseq m hm => ?_
    obtain ⟨-, hspares, -⟩ := hallowed hseq hm
    exact MicroOp.commutesWith_withStack x y (hspares hi)
  case memory =>
    refine runSelected_mem (fun seq hseq m hm => ?_) s
    obtain ⟨-, -, hne⟩ := hallowed hseq hm
    exact hne hi

end Sys2Proof.Machine
end

section
/-! Proofs about the encoding (30_encoding.md): decoding and encoding are inverse to each other. -/

namespace Sys2Proof

/-! ### The opcode cell -/

section
variable {map : List Mnemonic}

theorem decodeOpcode_eq_some_iff {op : Int} {m : Mnemonic} :
    decodeOpcode map op = some m ↔ (0 ≤ op ∧ op < (NOPC : Int)) ∧ map[op.toNat]? = some m := by
  simp [decodeOpcode]

theorem decodeOpcode_eq_none_iff (hlen : map.length = NOPC) {op : Int} : decodeOpcode map op = none ↔ op < 0 ∨ 29 ≤ op := by
  refine ⟨fun h => ?_, decodeOpcode_eq_none map⟩
  by_contra hin
  obtain ⟨m, hm⟩ := exists_decodeOpcode_eq_some hlen (op := op) (by omega) (by omega)
  simp [h] at hm

/-- In a table that lists every mnemonic, the opcode of a mnemonic decodes to it (R93, R94). -/
theorem decodeOpcode_opcodeOf (hlen : map.length = NOPC) {m : Mnemonic} (hm : m ∈ map) : decodeOpcode map (opcodeOf map m) = some m := by
  have hlt : map.idxOf m < map.length := List.idxOf_lt_length_iff.mpr hm
  refine decodeOpcode_eq_some_iff.mpr ⟨?_, ?_⟩
  · simp only [opcodeOf]; omega
  · simp [opcodeOf, List.getElem?_eq_getElem hlt]

/-- In a table without repeats, an opcode is the opcode of the mnemonic it decodes to. -/
theorem opcodeOf_of_decodeOpcode (hnodup : map.Nodup) {op : Int} {m : Mnemonic} (h : decodeOpcode map op = some m) :
    opcodeOf map m = op := by
  obtain ⟨⟨h0, -⟩, hget⟩ := decodeOpcode_eq_some_iff.mp h
  obtain ⟨hlt, rfl⟩ := List.getElem?_eq_some_iff.mp hget
  simp only [opcodeOf, hnodup.idxOf_getElem _ hlt]
  omega

end

/-! ### The operand cells -/

/-- R91: the table's operand count is the number of operand cells. -/
theorem Instr.operands_length (i : Instr) : i.operands.length = i.mnemonic.operandCount := by cases i <;> rfl

/-- R92: an instruction's own cells assemble to it, whatever follows them. -/
theorem assemble_operands_append (i : Instr) (rest : List Int) : assemble i.mnemonic (i.operands ++ rest) = some i := by cases i <;> rfl

section
variable {cells : List Int} {i : Instr}

theorem takeOne_eq_some {k : Int → Instr} (h : takeOne k cells = some i) : ∃ a rest, cells = a :: rest ∧ i = k a := by
  match cells, h with
  | a :: rest, rfl => exact ⟨a, rest, rfl, rfl⟩

theorem takeTwo_eq_some {k : Int → Int → Instr} (h : takeTwo k cells = some i) : ∃ a b rest, cells = a :: b :: rest ∧ i = k a b := by
  match cells, h with
  | a :: b :: rest, rfl => exact ⟨a, b, rest, rfl, rfl⟩

theorem takeThree_eq_some {k : Int → Int → Int → Instr} (h : takeThree k cells = some i) :
    ∃ a b c rest, cells = a :: b :: c :: rest ∧ i = k a b c := by
  match cells, h with
  | a :: b :: c :: rest, rfl => exact ⟨a, b, c, rest, rfl, rfl⟩

/-- What cells assemble to under a mnemonic has that mnemonic, and its operands are the first of the cells. -/
theorem assemble_eq_some {m : Mnemonic} (h : assemble m cells = some i) :
    i.mnemonic = m ∧ i.operands ++ cells.drop m.operandCount = cells := by
  cases m
  case inc | imulMemReg | imulRegMem | imulRegReg => cases h; exact ⟨rfl, rfl⟩
  case add | sub | incReg | jmp | jz | jn | read | store | ldi => obtain ⟨a, rest, rfl, rfl⟩ := takeOne_eq_some h; exact ⟨rfl, rfl⟩
  case jeq | jneq | jgt | jlw => obtain ⟨a, b, c, rest, rfl, rfl⟩ := takeThree_eq_some h; exact ⟨rfl, rfl⟩
  all_goals obtain ⟨a, b, rest, rfl, rfl⟩ := takeTwo_eq_some h; exact ⟨rfl, rfl⟩

theorem length_of_takeOne_eq_none {k : Int → Instr} (h : takeOne k cells = none) : cells.length < 1 := by
  match cells, h with
  | [], _ => decide

theorem length_of_takeTwo_eq_none {k : Int → Int → Instr} (h : takeTwo k cells = none) : cells.length < 2 := by
  match cells, h with
  | [], _ | [_], _ => simp

theorem length_of_takeThree_eq_none {k : Int → Int → Int → Instr} (h : takeThree k cells = none) : cells.length < 3 := by
  match cells, h with
  | [], _ | [_], _ | [_, _], _ => simp

theorem length_of_assemble_eq_none {m : Mnemonic} (h : assemble m cells = none) : cells.length < m.operandCount := by
  cases m
  case inc | imulMemReg | imulRegMem | imulRegReg => cases h
  case add | sub | incReg | jmp | jz | jn | read | store | ldi => exact length_of_takeOne_eq_none h
  case jeq | jneq | jgt | jlw => exact length_of_takeThree_eq_none h
  all_goals exact length_of_takeTwo_eq_none h

end

/-! ### Both directions -/

/-- Settles O18: the opcode cell decodes to the mnemonic, the operand cells assemble to the instruction, the rest is what is dropped to. -/
theorem decodeOfEncode : Obligations.DecodeOfEncode := by
  intro c i rest ⟨hlen, _, honto⟩
  have hop := decodeOpcode_opcodeOf hlen (honto i.mnemonic)
  have hrest : (i.operands ++ rest).drop i.mnemonic.operandCount = rest := List.drop_left' i.operands_length
  simp only [encodeWith, List.cons_append, decodeWith, hop, assemble_operands_append, hrest]

/-- Settles O19, by the three ways a run of cells can be rejected and the one it decodes. -/
theorem encodeOfDecode : Obligations.EncodeOfDecode := by
  intro c cells ⟨hlen, hnodup, _⟩
  match cells with
  | [] => rfl
  | op :: operands =>
    cases hop : decodeOpcode c.opcodeMap op with
    | none => simpa only [decodeWith, hop, List.head?_cons, true_and] using (decodeOpcode_eq_none_iff hlen).mp hop
    | some m =>
      have hopcode := opcodeOf_of_decodeOpcode hnodup hop
      cases hi : assemble m operands with
      | none =>
        have hshort : operands.length + 1 ≤ m.operandCount := length_of_assemble_eq_none hi
        simpa only [decodeWith, hop, hi, List.head?_cons, hopcode, List.length_cons, true_and] using hshort
      | some i =>
        obtain ⟨rfl, hcells⟩ := assemble_eq_some hi
        simp only [decodeWith, hop, hi, encodeWith, hopcode, List.cons_append, hcells]

/-- Settles O20: the model's decoder evaluates each of the words. -/
theorem tableWordsDecode : Obligations.TableWordsDecode :=
  ⟨rfl, rfl, rfl, rfl, rfl, rfl, rfl, rfl, rfl, rfl, rfl, rfl⟩

end Sys2Proof
end

section
/-! Proofs about values, the register file, reset and load (00_scope.md section 5, 10_state.md sections 2 and 13, 70_reset_and_hazards.md). -/

namespace Sys2Proof

/-! ### Values (R6) -/

/-- Integers congruent modulo `2^w` wrap to the same value. -/
theorem wrap_eq_wrap_of_dvd {w : Nat} {a b : Int} (h : ((2 ^ w : Nat) : Int) ∣ a - b) : wrap w a = wrap w b :=
  Int.bmod_eq_bmod_iff_bmod_sub_eq_zero.mpr (Int.dvd_iff_bmod_eq_zero.mp h)

/-- Settles O4: a value congruent to `v` is its own wrapping, and that is the wrapping of `v`. -/
theorem wrapGivesTheValueInRange : Obligations.WrapGivesTheValueInRange := by
  refine fun w v hw => ⟨Machine.wrapsTo_wrap hw v, fun r ⟨hr, hdvd⟩ => ?_, wrap_of_inWidth hw⟩
  calc r = wrap w r := (wrap_of_inWidth hw hr).symm
    _ = wrap w v := wrap_eq_wrap_of_dvd hdvd

end Sys2Proof

namespace Sys2Proof.Machine

/-! ### The register file (R21, R117) -/

section
variable (c : Config)

theorem resolve_outside {i : Int} (h : i < 0 ∨ (c.ngpr : Int) + 5 ≤ i) : resolve c i = none :=
  if_neg (by simp only [Config.nreg]; omega)

theorem resolve_inside {k : Nat} (h : k < c.ngpr + 5) : resolve c k = (registerFile c.ngpr)[k]? := by
  rw [resolve, if_pos (by simp only [Config.nreg]; omega), Int.toNat_natCast]

theorem resolve_general {k : Nat} (h : k < c.ngpr) : resolve c k = some (.reg (.rpg k)) := by
  rw [resolve_inside c (by omega), registerFile, List.getElem?_append_left (by simpa using h)]
  simp [h]

/-- The entry `k` places after the general registers. -/
theorem resolve_special {k : Nat} (h : k < 5) :
    resolve c ((c.ngpr : Int) + k) = [FileEntry.reg .stkTop, .reg .stkBot, .reg .pc, .reg .ir, .flags][k]? := by
  rw [← Int.natCast_add, resolve_inside c (by omega), registerFile, List.getElem?_append_right (by simp)]
  simp

end

/-- Settles O5: the general registers, the five entries after them, and the indices outside. -/
theorem registerFileOrder : Obligations.RegisterFileOrder := by
  refine fun c i => ⟨?_, ?_, ?_, ?_, ?_, ?_, resolve_outside c⟩
  · rintro k hk rfl; exact resolve_general c hk
  · rintro rfl; exact resolve_special c (k := 0) (by decide)
  · rintro rfl; exact resolve_special c (k := 1) (by decide)
  · rintro rfl; exact resolve_special c (k := 2) (by decide)
  · rintro rfl; exact resolve_special c (k := 3) (by decide)
  · rintro rfl; exact resolve_special c (k := 4) (by decide)

/-! ### Reset (R42, R240) -/

theorem Memory.read_map_const (l : List Nat) (v : Int) (a : Nat) :
    Memory.read (l.map fun b => (b, v)) a = if a ∈ l then v else Memory.unlisted := by
  induction l with
  | nil => rfl
  | cons b rest ih =>
    rw [List.map_cons, Memory.read_cons, ih]
    by_cases hb : b = a
    · simp [hb]
    · simp [hb, Ne.symm hb]

theorem Memory.read_filled {n a : Nat} (v : Int) (h : a < n) : Memory.read (Memory.filled n v) a = v := by
  unfold Memory.filled
  split
  · simp [*, Memory.read_nil]
  · rw [Memory.read_map_const, if_pos (List.mem_range.mpr h)]

/-- Settles O1: each element's reset value is written in `State.resetOf`; memory's is what `Memory.filled` reads. -/
theorem resetValues : Obligations.ResetValues := by
  refine fun s => ⟨rfl, rfl, rfl, rfl, rfl, fun x hpc hx => ?register, fun b => ?bus, fun k => ?slot, fun c => ?cell, rfl, rfl, rfl,
    fun a ha => Memory.read_filled _ ha⟩
  case register =>
    match x with
    | .rpg k =>
      have hk : k < s.cfg.ngpr := by simpa [State.has, State.resetInput, State.resetOf] using hx
      simp [State.getReg, State.resetInput, State.resetOf, hk]
    | .stkTop | .stkBot | .ir => rfl
    | .pc => exact absurd rfl hpc
  case bus => cases b <;> rfl
  case slot => cases k <;> rfl
  case cell => cases c <;> rfl

/-! ### Load (R246) -/

/-- What a loaded image leaves in the cells: its own values, one after the other, and elsewhere what was there. -/
theorem Memory.read_writeImage {w : Nat} {m m' : Memory} {a : Nat} {image : List Int} (hs : Memory.Sorted m)
    (h : Memory.writeImage w m a image = some m') (b : Nat) :
    Memory.read m' b = if a ≤ b ∧ b < a + image.length then image.getD (b - a) 0 else Memory.read m b := by
  induction image generalizing m a with
  | nil =>
    cases h
    rw [if_neg (by simp only [List.length_nil]; omega)]
  | cons v rest ih =>
    simp only [Memory.writeImage] at h
    split at h <;> try cases h
    rw [ih (Memory.write_sorted a v hs) h]
    rcases Nat.lt_trichotomy b a with hba | rfl | hba
    · rw [if_neg (by omega), if_neg (by omega), Memory.read_write_ne m v (by omega)]
    · simp [Memory.read_write_same b v hs]
    · obtain ⟨j, rfl⟩ : ∃ j, b = a + 1 + j := ⟨b - (a + 1), by omega⟩
      rw [Memory.read_write_ne m v (by omega), Nat.add_sub_cancel_left, Nat.add_assoc, Nat.add_sub_cancel_left, Nat.add_comm 1 j]
      simp only [List.length_cons, List.getD_cons_succ]
      exact if_congr (by omega) rfl rfl

/-- An image of values loads, and no other. -/
theorem Memory.exists_writeImage_iff {w : Nat} {m : Memory} {a : Nat} {image : List Int} :
    (∃ m', Memory.writeImage w m a image = some m') ↔ ∀ v ∈ image, InWidth w v := by
  induction image generalizing m a with
  | nil => simp [Memory.writeImage]
  | cons v rest ih =>
    rw [Memory.writeImage, List.forall_mem_cons]
    split
    case isTrue hv => rw [ih]; exact (and_iff_right hv).symm
    case isFalse hv => exact ⟨fun ⟨_, h⟩ => (nomatch h), fun ⟨h, _⟩ => absurd h hv⟩

section
variable {s : State} {image : List Int}

theorem State.load_eq_some {m : Memory} (hlen : image.length ≤ s.cfg.memsize) (hm : Memory.writeImage s.cfg.w s.mem 0 image = some m) :
    s.load image = some { s with mem := m } := by
  simp only [State.load, if_pos hlen, hm]

theorem State.load_eq_none (h : s.cfg.memsize < image.length ∨ ∃ v ∈ image, ¬InWidth s.cfg.w v) : s.load image = none := by
  simp only [State.load]
  split
  case isFalse => rfl
  case isTrue hlen =>
    obtain ⟨v, hv, hout⟩ := h.resolve_left (by omega)
    cases hm : Memory.writeImage s.cfg.w s.mem 0 image with
    | none => rfl
    | some m => exact absurd (Memory.exists_writeImage_iff.mp ⟨m, hm⟩ v hv) hout

end

/-- Settles O3: a fitting image is written over the filled memory of the reset state; any other is refused. -/
theorem loadPlacesImage : Obligations.LoadPlacesImage := by
  refine fun c image => ⟨fun ⟨hlen, hvalues⟩ => ?fits, fun h => State.load_eq_none (s := State.resetOf c) h⟩
  have hwf := Memory.filled_wf c.memsize c.memFill
  obtain ⟨m, hm⟩ := Memory.exists_writeImage_iff (m := Memory.filled c.memsize c.memFill) (a := 0) |>.mpr hvalues
  have hread := Memory.read_writeImage hwf.1 hm
  refine ⟨_, State.load_eq_some (s := State.resetOf c) hlen hm, rfl, Memory.writeImage_wf hwf (by omega) hm, fun i hi => ?_, fun i hi hi' => ?_⟩
  · simpa [hi] using hread i
  · rw [← Memory.read_filled c.memFill hi', hread i, if_neg (by omega)]

end Sys2Proof.Machine
end

section
/-! Proofs about the micro-operations (40_microops.md): each writes at most one element of the state, and which one, said once; then what
single micro-operations and fixed sequences do. -/

namespace Sys2Proof.Machine

/-! ### Hidden elements -/

/-- The value of a hidden element. -/
def State.hidden (s : State) : Hidden → Int
  | .bus b => s.getBus b
  | .slot k => s.getSlot k
  | .sel => s.sel
  | .memAL => s.memAL
  | .selCell c => s.getSelCell c
  | .selAL => s.selAL

/-- Overwrite a hidden element. -/
def State.setHidden (s : State) (h : Hidden) (v : Int) : State :=
  match h with
  | .bus b => s.putBus b v
  | .slot k => s.setSlot k v
  | .sel => { s with sel := v }
  | .memAL => { s with memAL := v }
  | .selCell c => s.setSelCell c v
  | .selAL => { s with selAL := v }

section
variable (s : State) (h : Hidden) (v : Int)

theorem State.hidden_setHidden (e : Hidden) : (s.setHidden h v).hidden e = if e = h then v else s.hidden e := by
  rcases h with (_ | _ | _) | (_ | _) | _ | _ | (_ | _) | _ <;> rcases e with (_ | _ | _) | (_ | _) | _ | _ | (_ | _) | _ <;> rfl

@[simp] theorem State.hidden_setHidden_same : (s.setHidden h v).hidden h = v := (s.hidden_setHidden h v h).trans (if_pos rfl)

theorem State.hidden_setHidden_ne {e : Hidden} (hne : e ≠ h) : (s.setHidden h v).hidden e = s.hidden e :=
  (s.hidden_setHidden h v e).trans (if_neg hne)

@[simp] theorem State.getReg_setHidden (x : Reg) : (s.setHidden h v).getReg x = s.getReg x := by
  rcases h with (_ | _ | _) | (_ | _) | _ | _ | (_ | _) | _ <;> cases x <;> rfl

@[simp] theorem State.setHidden_rpg : (s.setHidden h v).rpg = s.rpg := by
  rcases h with (_ | _ | _) | (_ | _) | _ | _ | (_ | _) | _ <;> rfl

@[simp] theorem State.setHidden_flags : (s.setHidden h v).flags = s.flags := by
  rcases h with (_ | _ | _) | (_ | _) | _ | _ | (_ | _) | _ <;> rfl

@[simp] theorem State.setHidden_mem : (s.setHidden h v).mem = s.mem := by
  rcases h with (_ | _ | _) | (_ | _) | _ | _ | (_ | _) | _ <;> rfl

@[simp] theorem State.setHidden_run : (s.setHidden h v).run = s.run := by
  rcases h with (_ | _ | _) | (_ | _) | _ | _ | (_ | _) | _ <;> rfl

@[simp] theorem State.setHidden_cfg : (s.setHidden h v).cfg = s.cfg := by
  rcases h with (_ | _ | _) | (_ | _) | _ | _ | (_ | _) | _ <;> rfl

@[simp] theorem State.hidden_setReg (x : Reg) : (s.setReg x v).hidden h = s.hidden h := by
  rcases h with (_ | _ | _) | (_ | _) | _ | _ | (_ | _) | _ <;> cases x <;> rfl

end

/-! ### The flags -/

/-- Settles O11: the update law is what `flagsOf` decides, and no value is both 0 and below 0. -/
theorem flagsLaw : Obligations.FlagsLaw := by
  refine fun r => ⟨decide_eq_true_iff, decide_eq_true_iff, fun ⟨hz, hn⟩ => ?_⟩
  have hzero : r = 0 := of_decide_eq_true hz
  have hneg : r < 0 := of_decide_eq_true hn
  omega

/-! ### One micro-operation, one write -/

/-- What a micro-operation can write: one hidden element, one register, the flags from a value, or one memory cell. -/
inductive Write
  | hidden (h : Hidden) (v : Int)
  | reg (x : Reg) (v : Int)
  | flags (r : Int)
  | cell (a v : Int)

/-- The state after a write. -/
def State.perform (s : State) : Write → State
  | .hidden h v => s.setHidden h v
  | .reg x v => s.setReg x v
  | .flags r => { s with flags := flagsOf r }
  | .cell a v => s.setCell a v

/-- The register that an entry of the register file list is on a bus, or the fault of R118. -/
def FileEntry.onBus (e : FileEntry) (b : Bus) : Except Fault Reg :=
  match e with
  | .flags => .error .configurationFault
  | .reg x => if e.wired b then .ok x else .error .configurationFault

/-- The register that an index selects on a bus, or the fault of R117 or R118. -/
def selectOn (c : Config) (b : Bus) (i : Int) : Except Fault Reg :=
  match resolve c i with
  | some e => e.onBus b
  | none => .error .registerIndexFault

/-- What a micro-operation writes, or the fault it detects (R114 to R129). -/
def MicroOp.plan (m : MicroOp) (s : State) : Except Fault Write :=
  match m with
  | .rd x b => ((FileEntry.reg x).onBus b).map fun x => .hidden (.bus b) (s.getReg x)
  | .st x b => ((FileEntry.reg x).onBus b).map fun x => .reg x (s.getBus b)
  | .rselRd b => (selectOn s.cfg b s.sel).map fun x => .hidden (.bus b) (s.getReg x)
  | .rselSt b => (selectOn s.cfg b s.sel).map fun x => .reg x (s.getBus b)
  | .selSet => .ok (.hidden .sel s.ext)
  | .aluSt1 k => .ok (.hidden (.slot k) s.int1)
  | .aluRd1 k => .ok (.hidden (.bus .int1) (s.getSlot k))
  | .aluSt2 k => .ok (.hidden (.slot k) s.int2)
  | .aluRd2 k => .ok (.hidden (.bus .int2) (s.getSlot k))
  | .aluAdd => .ok (.hidden (.slot .slot1) (wrap s.cfg.w (s.s0 + s.s1)))
  | .aluSub => .ok (.hidden (.slot .slot1) (wrap s.cfg.w (s.s0 - s.s1)))
  | .aluInc => .ok (.hidden (.slot .slot1) (wrap s.cfg.w (s.s1 + 1)))
  | .flagsUpd => .ok (.flags s.int2)
  | .flagsBit i => .ok (.hidden (.bus .ext) (bitWord (s.flags.bit i)))
  | .memRead => if s.valid s.ext then .ok (.hidden (.bus .ext) (s.cell s.ext)) else .error .fatalAddressing
  | .memSta => .ok (.hidden .memAL s.ext)
  | .memStd => if s.valid s.memAL then .ok (.cell s.memAL s.ext) else .error .fatalAddressing
  | .selmemRead =>
    match selCell? s.ext with
    | some c => .ok (.hidden (.bus .ext) (s.getSelCell c))
    | none => .error .fatalAddressing
  | .selmemSt c => .ok (.hidden (.selCell c) s.ext)
  | .selmemSta => .ok (.hidden .selAL s.ext)
  | .selmemStd =>
    match selCell? s.selAL with
    | some c => .ok (.hidden (.selCell c) s.ext)
    | none => .error .fatalAddressing
  | .operandRead v => if s.valid s.ext then .ok (.hidden (.bus .ext) v) else .error .fatalAddressing

section
variable (s : State) (b : Bus)

theorem State.readOnto_eq (e : FileEntry) : s.readOnto e b = (e.onBus b).map fun x => s.putBus b (s.getReg x) := by
  match e with
  | .flags => rfl
  | .reg x => simp only [readOnto, FileEntry.onBus]; split <;> rfl

theorem State.storeFrom_eq (e : FileEntry) : s.storeFrom e b = (e.onBus b).map fun x => s.setReg x (s.getBus b) := by
  match e with
  | .flags => rfl
  | .reg x => simp only [storeFrom, FileEntry.onBus]; split <;> rfl

theorem State.rselRead_eq : s.rselRead b = (selectOn s.cfg b s.sel).map fun x => s.putBus b (s.getReg x) := by
  simp only [rselRead, selectOn, readOnto_eq]
  cases resolve s.cfg s.sel <;> rfl

theorem State.rselStore_eq : s.rselStore b = (selectOn s.cfg b s.sel).map fun x => s.setReg x (s.getBus b) := by
  simp only [rselStore, selectOn, storeFrom_eq]
  cases resolve s.cfg s.sel <;> rfl

end

/-- A micro-operation performs the write it plans, and nothing else. -/
theorem MicroOp.apply_eq_plan (m : MicroOp) (s : State) : m.apply s = (m.plan s).map s.perform := by
  cases m
  case rd x b => rw [apply, plan, State.readOnto_eq]; cases (FileEntry.reg x).onBus b <;> rfl
  case st x b => rw [apply, plan, State.storeFrom_eq]; cases (FileEntry.reg x).onBus b <;> rfl
  case rselRd b => rw [apply, plan, State.rselRead_eq]; cases selectOn s.cfg b s.sel <;> rfl
  case rselSt b => rw [apply, plan, State.rselStore_eq]; cases selectOn s.cfg b s.sel <;> rfl
  case memRead => simp only [apply, plan, State.memRead]; split <;> rfl
  case operandRead => simp only [apply, plan, State.operandRead]; split <;> rfl
  case memStd => simp only [apply, plan, State.memStd]; split <;> rfl
  case selmemRead => simp only [apply, plan, State.selmemRead]; cases selCell? s.ext <;> rfl
  case selmemStd => simp only [apply, plan, State.selmemStd]; cases selCell? s.selAL <;> rfl
  all_goals rfl

/-- What a transfer plans, it plans for the register that its check found. -/
theorem exists_of_map_eq_ok {α β : Type} {x : Except Fault α} {f : α → β} {b : β} (h : x.map f = .ok b) : ∃ a, x = .ok a ∧ f a = b := by
  cases x with
  | error _ => cases h
  | ok a => exact ⟨a, rfl, Except.ok.inj h⟩

theorem MicroOp.apply_eq_ok_iff {m : MicroOp} {s t : State} : m.apply s = .ok t ↔ ∃ w, m.plan s = .ok w ∧ s.perform w = t := by
  rw [apply_eq_plan]
  cases m.plan s <;> simp [Except.map]

/-- The register a micro-operation writes, where SEL holds `i`. -/
def MicroOp.writtenRegs (c : Config) (i : Int) : MicroOp → List Reg
  | .st x _ => [x]
  | .rselSt _ => Claims.named c i
  | _ => []

/-- A write that the micro-operation can perform. -/
def MicroOp.MayPerform (m : MicroOp) (s : State) : Write → Prop
  | .hidden h _ => m.makes = [h] ∨ m = .selmemStd
  | .reg x _ => m.makes = [] ∧ x ∈ m.writtenRegs s.cfg s.sel
  | .flags _ => m = .flagsUpd
  | .cell a _ => m = .memStd ∧ a = s.memAL

theorem mem_named_of_selectOn {c : Config} {b : Bus} {i : Int} {x : Reg} (h : selectOn c b i = .ok x) : x ∈ Claims.named c i := by
  simp only [selectOn] at h
  simp only [Claims.named]
  match resolve c i, h with
  | some (.reg y), h =>
    simp only [FileEntry.onBus] at h
    split at h <;> cases h
    exact List.mem_singleton_self _

theorem FileEntry.eq_of_onBus {x y : Reg} {b : Bus} (h : (FileEntry.reg x).onBus b = .ok y) : y = x := by
  simp only [onBus] at h
  split at h <;> cases h
  rfl

/-- What a micro-operation plans, it can perform. -/
theorem MicroOp.mayPerform_of_plan {m : MicroOp} {s : State} {w : Write} (h : m.plan s = .ok w) : m.MayPerform s w := by
  cases m
  case rd x b | rselRd b => obtain ⟨y, -, rfl⟩ := exists_of_map_eq_ok h; exact .inl rfl
  case st x b => obtain ⟨y, hy, rfl⟩ := exists_of_map_eq_ok h; exact ⟨rfl, List.mem_singleton.mpr (FileEntry.eq_of_onBus hy)⟩
  case rselSt b => obtain ⟨y, hy, rfl⟩ := exists_of_map_eq_ok h; exact ⟨rfl, mem_named_of_selectOn hy⟩
  case memStd => simp only [plan] at h; split at h <;> cases h; exact ⟨rfl, rfl⟩
  case memRead | operandRead | selmemRead => simp only [plan] at h; split at h <;> cases h; exact .inl rfl
  case selmemStd => simp only [plan] at h; split at h <;> cases h; exact .inr rfl
  case flagsUpd => cases h; rfl
  all_goals cases h; exact .inl rfl

section
variable {m : MicroOp} {s t : State} (h : m.apply s = .ok t)
include h

theorem MicroOp.apply_getReg {x : Reg} (hx : x ∉ m.writtenRegs s.cfg s.sel) : t.getReg x = s.getReg x := by
  obtain ⟨w, hw, rfl⟩ := MicroOp.apply_eq_ok_iff.mp h
  match w, mayPerform_of_plan hw with
  | .hidden e v, _ => exact s.getReg_setHidden e v x
  | .reg y v, ⟨_, hy⟩ => exact s.getReg_setReg_ne v fun hxy => hx (hxy ▸ hy)
  | .flags r, _ => cases x <;> rfl
  | .cell a v, _ => exact s.getReg_setCell a v x

theorem MicroOp.apply_hidden {e : Hidden} (he : e ∉ m.makes) (hm : m ≠ .selmemStd) : t.hidden e = s.hidden e := by
  obtain ⟨w, hw, rfl⟩ := MicroOp.apply_eq_ok_iff.mp h
  match w, mayPerform_of_plan hw with
  | .hidden e' v, hmay => exact s.hidden_setHidden_ne e' v fun heq => he (by simp [hmay.resolve_right hm, heq])
  | .reg y v, _ => exact s.hidden_setReg e v y
  | .flags r, _ | .cell a v, _ => cases e <;> rfl

theorem MicroOp.apply_flags (hm : m ≠ .flagsUpd) : t.flags = s.flags := by
  obtain ⟨w, hw, rfl⟩ := MicroOp.apply_eq_ok_iff.mp h
  match w, mayPerform_of_plan hw with
  | .hidden e v, _ => exact s.setHidden_flags e v
  | .reg y v, _ => exact s.setReg_flags y v
  | .flags r, hmay => exact absurd hmay hm
  | .cell a v, _ => rfl

end

theorem runSeq_cons (m : MicroOp) (rest : List MicroOp) (s : State) :
    runSeq (m :: rest) s = match m.plan s with
      | .ok w => runSeq rest (s.perform w)
      | .error f => s.raise f := by
  cases h : m.plan s <;> simp [runSeq, MicroOp.apply_eq_plan, h, Except.map]

/-- R112, R221: one write changes at most one bus, and neither RUN nor the parameters. -/
theorem State.perform_bus_run_cfg (s : State) (w : Write) :
    (∃ b, ∀ c, c ≠ b → (s.perform w).getBus c = s.getBus c) ∧ (s.perform w).run = s.run ∧ (s.perform w).cfg = s.cfg := by
  match w with
  | .hidden (.bus b) v => exact ⟨⟨b, fun c => s.getBus_putBus_ne v⟩, s.putBus_run b v, s.putBus_cfg b v⟩
  | .hidden (.slot k) v => exact ⟨⟨.ext, fun c _ => by cases k <;> cases c <;> rfl⟩, s.setSlot_run k v, s.setSlot_cfg k v⟩
  | .hidden (.selCell k) v => exact ⟨⟨.ext, fun c _ => by cases k <;> cases c <;> rfl⟩, s.setSelCell_run k v, s.setSelCell_cfg k v⟩
  | .reg x v => exact ⟨⟨.ext, fun c _ => s.getBus_setReg x v c⟩, s.setReg_run x v, s.setReg_cfg x v⟩
  | .hidden .sel _ | .hidden .memAL _ | .hidden .selAL _ | .flags _ | .cell _ _ => exact ⟨⟨.ext, fun c _ => by cases c <;> rfl⟩, rfl, rfl⟩

/-- Settles O17: a micro-operation performs one write. -/
theorem oneBusPerMicroOp : Obligations.OneBusPerMicroOp := by
  intro m s t h
  obtain ⟨w, -, rfl⟩ := MicroOp.apply_eq_ok_iff.mp h
  exact s.perform_bus_run_cfg w

/-! ### Transfers of a selected register (R116 to R118) -/

section
variable {c : Config} {b : Bus} {i : Int}

theorem selectOn_of_none (h : resolve c i = none) : selectOn c b i = .error .registerIndexFault := by rw [selectOn, h]

theorem selectOn_of_flags (h : resolve c i = some .flags) : selectOn c b i = .error .configurationFault := by rw [selectOn, h]; rfl

theorem selectOn_of_wired {x : Reg} (h : resolve c i = some (.reg x)) (hb : (FileEntry.reg x).wired b = true) :
    selectOn c b i = .ok x := by
  rw [selectOn, h]; exact if_pos hb

theorem selectOn_of_unwired {x : Reg} (h : resolve c i = some (.reg x)) (hb : (FileEntry.reg x).wired b = false) :
    selectOn c b i = .error .configurationFault := by
  rw [selectOn, h]; exact if_neg (by simp [hb])

end

theorem selectOn_of_regFault {f : Fault} (h : Claims.regFault c b i = some f) : selectOn c b i = .error f := by
  simp only [Claims.regFault] at h
  split at h
  case h_1 hnone => cases h; exact selectOn_of_none hnone
  case h_2 e he =>
    split at h
    case isTrue => cases h
    case isFalse hb =>
      cases h
      match e with
      | .flags => exact selectOn_of_flags he
      | .reg x => exact selectOn_of_unwired he (Bool.eq_false_iff.mpr hb)

theorem selects_of_regFault_none {s : State} {x : Reg} (h : resolve s.cfg i = some (.reg x)) (hf : Claims.regFault s.cfg b i = none) :
    Claims.Selects s b i x := by
  simpa [Claims.regFault, h, Claims.Selects] using hf

/-- R92: an operand legal over EXT names a stack register or a register that every bus reaches (R28). -/
theorem resolve_of_legal (h : regLegalOnExt c i = true) :
    i = c.ngpr ∧ resolve c i = some (.reg .stkTop) ∨ i = (c.ngpr : Int) + 1 ∧ resolve c i = some (.reg .stkBot) ∨
    ∃ x, resolve c i = some (.reg x) ∧ ∀ b, (FileEntry.reg x).wired b = true := by
  obtain ⟨hindex, hflags⟩ := (Bool.and_eq_true _ _).mp h
  obtain ⟨-, h0, hn⟩ := of_decide_eq_true hindex
  have hflags := of_decide_eq_true hflags
  simp only [Config.nreg] at hn
  obtain ⟨hgeneral, htop, hbot, hpc, hir, -, -⟩ := registerFileOrder c i
  by_cases hk : i < c.ngpr
  · exact .inr (.inr ⟨_, hgeneral i.toNat (by omega) (by omega), fun _ => rfl⟩)
  · obtain h | h | h | h : i = c.ngpr ∨ i = (c.ngpr : Int) + 1 ∨ i = (c.ngpr : Int) + 2 ∨ i = (c.ngpr : Int) + 3 := by omega
    exacts [.inl ⟨h, htop h⟩, .inr (.inl ⟨h, hbot h⟩), .inr (.inr ⟨_, hpc h, fun _ => rfl⟩), .inr (.inr ⟨_, hir h, fun _ => rfl⟩)]

theorem exists_resolve_of_legal (h : regLegalOnExt c i = true) : ∃ x, resolve c i = some (.reg x) := by
  obtain ⟨-, hx⟩ | ⟨-, hx⟩ | ⟨x, hx, -⟩ := resolve_of_legal h
  exacts [⟨_, hx⟩, ⟨_, hx⟩, ⟨_, hx⟩]

/-- R92: an operand legal over the internal buses names a register that every bus reaches. -/
theorem exists_selects_of_legal {s : State} (h : regLegalOnInternal s.cfg i = true) : ∃ x, ∀ b, Claims.Selects s b i x := by
  simp only [regLegalOnInternal, Bool.and_eq_true, decide_eq_true_eq] at h
  obtain ⟨⟨hext, htop⟩, hbot⟩ := h
  obtain ⟨hi, -⟩ | ⟨hi, -⟩ | ⟨x, hx, hwired⟩ := resolve_of_legal hext
  · exact absurd hi htop
  · exact absurd hi hbot
  · exact ⟨x, fun b => ⟨hx, hwired b⟩⟩

theorem selects_of_legal {s : State} {x : Reg} (h : regLegalOnInternal s.cfg i = true) (hx : resolve s.cfg i = some (.reg x)) :
    Claims.Selects s b i x := by
  obtain ⟨y, hy⟩ := exists_selects_of_legal h
  obtain ⟨hy, hwired⟩ := hy b
  rw [hx] at hy
  cases hy
  exact ⟨hx, hwired⟩

/-- A selected transfer raises what the selection raises. -/
theorem MicroOp.rsel_apply_error {s : State} {b : Bus} {f : Fault} (h : selectOn s.cfg b s.sel = .error f) :
    (MicroOp.rselRd b).apply s = .error f ∧ (MicroOp.rselSt b).apply s = .error f := by
  simp only [apply, State.rselRead_eq, State.rselStore_eq, h]
  exact ⟨rfl, rfl⟩

/-- A selected transfer copies the register that is selected. -/
theorem MicroOp.rsel_apply_ok {s : State} {b : Bus} {x : Reg} (h : selectOn s.cfg b s.sel = .ok x) :
    (MicroOp.rselRd b).apply s = .ok (s.putBus b (s.getReg x)) ∧ (MicroOp.rselSt b).apply s = .ok (s.setReg x (s.getBus b)) := by
  simp only [apply, State.rselRead_eq, State.rselStore_eq, h]
  exact ⟨rfl, rfl⟩

/-- Settles O14: what SEL names (O5), and whether it is wired to the bus. -/
theorem selectedTransferChecks : Obligations.SelectedTransferChecks := by
  intro s b
  obtain ⟨hgeneral, htop, hbot, hpc, hir, hflags, hout⟩ := registerFileOrder s.cfg s.sel
  refine ⟨fun h => ?index, ?config, fun k hk hsel => ?general, ?stack, fun h => ?pc, fun h => ?ir⟩
  case index => exact MicroOp.rsel_apply_error (selectOn_of_none (hout h))
  case config =>
    rintro (h | ⟨h | h, hb⟩)
    · exact MicroOp.rsel_apply_error (selectOn_of_flags (hflags h))
    · exact MicroOp.rsel_apply_error (selectOn_of_unwired (htop h) (decide_eq_false hb))
    · exact MicroOp.rsel_apply_error (selectOn_of_unwired (hbot h) (decide_eq_false hb))
  case general => exact MicroOp.rsel_apply_ok (selectOn_of_wired (hgeneral k hk hsel) rfl)
  case stack =>
    rintro rfl
    exact ⟨fun h => MicroOp.rsel_apply_ok (selectOn_of_wired (htop h) rfl), fun h => MicroOp.rsel_apply_ok (selectOn_of_wired (hbot h) rfl)⟩
  case pc => exact MicroOp.rsel_apply_ok (selectOn_of_wired (hpc h) rfl)
  case ir => exact MicroOp.rsel_apply_ok (selectOn_of_wired (hir h) rfl)

/-! ### Stores, and the ports of SEL, the flags and the selector memory -/

/-- Settles O13, from the rules of `State.memStd` and of writing a memory cell. -/
theorem storeIsTwoPhase : Obligations.StoreIsTwoPhase := by
  refine fun s => ⟨rfl, fun ⟨h0, hn⟩ => ?inRange, fun hout => s.memStd_invalid ((validAddr_eq_false_iff _ _).mpr hout)⟩
  have hvalid : validAddr s.cfg.memsize s.memAL = true := (validAddr_iff _ _).mpr ⟨h0, by omega⟩
  refine ⟨_, s.memStd_valid hvalid, fun hwf => ⟨Memory.write_wf _ hwf (by omega), fun a => ?_⟩⟩
  split
  case isTrue ha => rw [ha, Memory.read_write_same _ _ hwf.1]
  case isFalse ha => exact Memory.read_write_ne _ _ ha

theorem selCell?_zero {a : Int} (h : a = 0) : selCell? a = some .cell0 := if_pos h

theorem selCell?_one {a : Int} (h : a = 1) : selCell? a = some .cell1 := by rw [h]; rfl

theorem selCell?_outside {a : Int} (h : a < 0 ∨ 2 ≤ a) : selCell? a = none := by
  rw [selCell?, if_neg (by omega), if_neg (by omega)]

/-- Settles O15: each port by its definition; outside 0 and 1 no selector cell has an address. -/
theorem flagAndSelectorPorts : Obligations.FlagAndSelectorPorts := by
  refine fun s => ⟨rfl, ⟨_, rfl, decide_eq_true_iff, decide_eq_true_iff⟩, rfl, rfl, rfl, rfl,
    fun h => ?read0, fun h => ?read1, fun h => ?noRead,
    rfl, fun h => ?store0, fun h => ?store1, fun h => ?noStore⟩
  case read0 | store0 => simp only [MicroOp.apply, State.selmemRead, State.selmemStd, selCell?_zero h]; rfl
  case read1 | store1 => simp only [MicroOp.apply, State.selmemRead, State.selmemStd, selCell?_one h]; rfl
  case noRead => simp only [MicroOp.apply, State.selmemRead, selCell?_outside h]
  case noStore => simp only [MicroOp.apply, State.selmemStd, selCell?_outside h]

/-! ### Fixed sequences -/

/-- Settles O6: the five micro-operations of PCINC, run one after the other. -/
theorem pcincAdvancesPc : Obligations.PcincAdvancesPc := ⟨rfl, runSeq_pcinc_append []⟩

/-- Settles O7, by whether PC is an address. -/
theorem fetchLoadsIr : Obligations.FetchLoadsIr := fun _ => ⟨State.fetch_valid, State.fetch_invalid⟩

/-- Settles O16: a finite check, over the modes of the parameters that choose a sequence and over the mnemonics. -/
theorem sequencesKeepTheDiscipline : Obligations.SequencesKeepTheDiscipline := by
  intro c m seq h
  rcases c with ⟨_, _, _, _, _ | _, _ | _ | _, _, _⟩ <;> cases m <;> cases h <;> exact ⟨rfl, rfl, rfl⟩

/-- A micro-operation that delivers a decoded operand. -/
def MicroOp.isOperandRead : MicroOp → Bool
  | .operandRead _ => true
  | _ => false

/-- The printed sequences read every operand from memory. -/
theorem microSeq_reads_memory {c : Config} {m : Mnemonic} {seq : List MicroOp} (h : microSeq c m = some seq) :
    ∀ op ∈ seq, op.isOperandRead = false := by
  suffices hall : (seq.all fun op => !op.isOperandRead) = true by simpa using hall
  rcases c with ⟨_, _, _, _, _ | _, _ | _ | _, _, _⟩ <;> cases m <;> cases h <;> rfl

end Sys2Proof.Machine
end

section
/-! Proofs about the control loop (40_microops.md section 6): the step is the micro-sequence cycle, and what every step keeps. -/

namespace Sys2Proof.Machine

/-! ### The invariant (R5, R6, R23, R30) -/

theorem State.getReg_setReg_or (s : State) (x y : Reg) (v : Int) : (s.setReg x v).getReg y = v ∨ (s.setReg x v).getReg y = s.getReg y := by
  by_cases hy : y = x
  · subst hy
    cases hhas : s.has y
    case true => exact .inl (s.getReg_setReg_same v hhas)
    case false =>
      obtain ⟨k, rfl, hk⟩ : ∃ k, y = .rpg k ∧ s.rpg.length ≤ k := by
        cases y <;> simp [has] at hhas
        exact ⟨_, rfl, hhas⟩
      exact .inr (by simp [setReg, getReg, List.set_eq_of_length_le hk])
  · exact .inr (s.getReg_setReg_ne v hy)

/-- Every value the machine holds is a register's, a hidden element's or a memory cell's. -/
theorem State.forall_words_iff (s : State) {P : Int → Prop} (h0 : P 0) :
    (∀ v ∈ s.words, P v) ↔ (∀ x, P (s.getReg x)) ∧ (∀ e, P (s.hidden e)) ∧ ∀ c ∈ s.mem, P c.2 := by
  constructor
  · intro h
    refine ⟨fun x => ?_, fun e => ?_, fun c hc => h _ (List.mem_append_right _ (List.mem_map_of_mem hc))⟩
    · match x with
      | .rpg k =>
        by_cases hk : k < s.rpg.length
        · exact h _ (by simp [words, getReg, hk])
        · simpa [getReg, hk] using h0
      | .stkTop | .stkBot | .pc | .ir => exact h _ (by simp [words, getReg])
    · rcases e with (_ | _ | _) | (_ | _) | _ | _ | (_ | _) | _ <;> exact h _ (by simp [words, hidden, getBus, getSlot, getSelCell])
  · rintro ⟨hreg, hhid, hmem⟩
    have hrpg : ∀ v ∈ s.rpg, P v := by
      intro v hv
      obtain ⟨k, hk, rfl⟩ := List.getElem_of_mem hv
      simpa [getReg, hk] using hreg (.rpg k)
    simp only [words, List.forall_mem_append, List.forall_mem_cons, List.forall_mem_map]
    exact ⟨⟨hrpg, hreg .stkTop, hreg .stkBot, hreg .pc, hreg .ir, hhid (.bus .ext), hhid (.bus .int1), hhid (.bus .int2),
      hhid (.slot .slot0), hhid (.slot .slot1), hhid .sel, hhid .memAL, hhid (.selCell .cell0), hhid (.selCell .cell1), hhid .selAL,
      nofun⟩, hmem⟩

theorem State.inv_iff {s : State} : s.Inv ↔
    Memory.wf s.cfg.memsize s.mem ∧ s.cfg.wf ∧ s.rpg.length = s.cfg.ngpr ∧
    ((∀ x, InWidth s.cfg.w (s.getReg x)) ∧ (∀ e, InWidth s.cfg.w (s.hidden e)) ∧ ∀ c ∈ s.mem, InWidth s.cfg.w c.2) ∧
    ¬(s.flags.zero = true ∧ s.flags.negative = true) := by
  rw [Inv, State.forall_words_iff s (zero_inWidth _)]

section
variable {s : State} (h : s.Inv)
include h

theorem State.Inv.getReg (x : Reg) : InWidth s.cfg.w (s.getReg x) := by
  obtain ⟨-, -, -, ⟨hreg, -, -⟩, -⟩ := State.inv_iff.mp h
  exact hreg x

theorem State.Inv.hidden (e : Hidden) : InWidth s.cfg.w (s.hidden e) := by
  obtain ⟨-, -, -, ⟨-, hhid, -⟩, -⟩ := State.inv_iff.mp h
  exact hhid e

theorem State.Inv.cell (a : Int) : InWidth s.cfg.w (s.cell a) := by
  obtain ⟨-, -, -, ⟨-, -, hcells⟩, -⟩ := State.inv_iff.mp h
  exact Memory.read_inWidth hcells a.toNat

theorem State.Inv.wrap (v : Int) : InWidth s.cfg.w (wrap s.cfg.w v) := by
  obtain ⟨-, ⟨-, hw, -⟩, -⟩ := h
  exact wrap_inWidth (by omega) v

/-- A flag bit is a value of every legal width (D1). -/
theorem State.Inv.bitWord (b : Bool) : InWidth s.cfg.w (bitWord b) := by
  obtain ⟨-, ⟨-, hw, -⟩, -⟩ := h
  have hpow : 2 ^ 1 ≤ 2 ^ (s.cfg.w - 1) := Nat.pow_le_pow_right (by decide) (by omega)
  match b with
  | false => exact zero_inWidth _
  | true => show _ ≤ (1 : Int) ∧ (1 : Int) < _; omega

/-- RUN is no part of the invariant. -/
theorem State.Inv.withRun (r : Run) : State.Inv { s with run := r } := h

end

/-- A write that the invariant allows: its value is a value of `W` bits, and a cell it writes is one of the memory's. -/
def Write.Legal (c : Config) : Write → Prop
  | .hidden _ v | .reg _ v => InWidth c.w v
  | .flags _ => True
  | .cell a v => validAddr c.memsize a = true ∧ InWidth c.w v

theorem State.Inv.perform {s : State} (h : s.Inv) {w : Write} (hw : w.Legal s.cfg) : (s.perform w).Inv := by
  have hkeep : (s.perform w).cfg = s.cfg := (s.perform_bus_run_cfg w).2.2
  obtain ⟨hmem, hcfg, hlen, ⟨hreg, hhid, hcells⟩, hflags⟩ := State.inv_iff.mp h
  rw [State.inv_iff, hkeep]
  match w, hw with
  | .hidden e v, hv =>
    have hhid' e' : InWidth s.cfg.w ((s.setHidden e v).hidden e') := by
      by_cases he : e' = e
      · rwa [he, State.hidden_setHidden_same]
      · rw [State.hidden_setHidden_ne _ _ _ he]; exact hhid e'
    simp only [State.perform, State.setHidden_mem, State.setHidden_rpg, State.getReg_setHidden, State.setHidden_flags]
    exact ⟨hmem, hcfg, hlen, ⟨hreg, hhid', hcells⟩, hflags⟩
  | .reg x v, hv =>
    have hreg' y : InWidth s.cfg.w ((s.setReg x v).getReg y) := by
      rcases s.getReg_setReg_or x y v with hy | hy <;> rw [hy]
      exacts [hv, hreg y]
    simp only [State.perform, State.setReg_mem, State.setReg_rpg_length, State.hidden_setReg, State.setReg_flags]
    exact ⟨hmem, hcfg, hlen, ⟨hreg', hhid, hcells⟩, hflags⟩
  | .flags r, _ =>
    exact ⟨hmem, hcfg, hlen, ⟨hreg, hhid, hcells⟩, (flagsLaw r).2.2⟩
  | .cell a v, ⟨ha, hv⟩ =>
    have hcells' : ∀ c ∈ Memory.write s.mem a.toNat v, InWidth s.cfg.w c.2 := by
      intro c hc
      rcases Memory.mem_write hc with ⟨rfl, -⟩ | hc
      exacts [hv, hcells c hc]
    exact ⟨Memory.write_wf v hmem ((validAddr_iff _ _).mp ha).2, hcfg, hlen, ⟨hreg, hhid, hcells'⟩, hflags⟩

/-- What a micro-operation of the printed sequences writes keeps the invariant: it moves values the machine holds, or wraps a result. -/
theorem MicroOp.plan_legal {m : MicroOp} {s : State} (h : s.Inv) (hm : m.isOperandRead = false) {w : Write} (hw : m.plan s = .ok w) :
    w.Legal s.cfg := by
  cases m
  case rd x b | rselRd b => obtain ⟨x, -, rfl⟩ := exists_of_map_eq_ok hw; exact h.getReg x
  case st x b | rselSt b => obtain ⟨x, -, rfl⟩ := exists_of_map_eq_ok hw; exact h.hidden (.bus b)
  case memRead => simp only [plan] at hw; split at hw <;> cases hw; exact h.cell _
  case memStd => simp only [plan] at hw; split at hw <;> cases hw; exact ⟨‹_›, h.hidden (.bus .ext)⟩
  case selmemRead => simp only [plan] at hw; split at hw <;> cases hw; exact h.hidden (.selCell _)
  case selmemStd => simp only [plan] at hw; split at hw <;> cases hw; exact h.hidden (.bus .ext)
  case operandRead v => cases hm
  all_goals cases hw
  case aluAdd | aluSub | aluInc => exact h.wrap _
  case flagsBit => exact h.bitWord _
  case flagsUpd => exact trivial
  case aluSt1 => exact h.hidden (.bus .int1)
  case aluSt2 => exact h.hidden (.bus .int2)
  case aluRd1 k | aluRd2 k => exact h.hidden (.slot k)
  all_goals exact h.hidden (.bus .ext)

theorem runSeq_inv {seq : List MicroOp} (hseq : ∀ m ∈ seq, m.isOperandRead = false) {s : State} (h : s.Inv) : (runSeq seq s).Inv := by
  induction seq generalizing s with
  | nil => exact h
  | cons m rest ih =>
    obtain ⟨hm, hrest⟩ := List.forall_mem_cons.mp hseq
    cases hap : m.apply s with
    | error f => rw [runSeq_cons_error rest hap]; exact h.withRun _
    | ok t =>
      obtain ⟨w, hw, rfl⟩ := MicroOp.apply_eq_ok_iff.mp hap
      rw [runSeq_cons_ok rest hap]
      exact ih hrest (h.perform (MicroOp.plan_legal h hm hw))

theorem State.Inv.decodeExecute {s : State} (h : s.Inv) : s.decodeExecute.Inv := by
  simp only [State.decodeExecute]
  split
  case h_2 => exact h.withRun _
  case h_1 m _ =>
    cases hseq : microSeq s.cfg m with
    | none => exact h.withRun _
    | some seq => exact runSeq_inv (microSeq_reads_memory hseq) h

/-- The state after reset under legal parameters meets the invariant. -/
theorem State.resetOf_inv {c : Config} (h : c.wf) : (State.resetOf c).Inv := by
  obtain ⟨-, hw, -, -, hfill, hreset⟩ := id h
  refine State.inv_iff.mpr ⟨Memory.filled_wf _ _, h, List.length_replicate,
    ⟨fun x => ?register, fun e => ?hidden, fun cell hcell => ?cell⟩, by simp [resetOf]⟩
  case register =>
    match x with
    | .rpg k =>
      by_cases hk : k < c.ngpr
      · simpa [getReg, resetOf, hk] using hreset
      · simpa [getReg, resetOf, hk] using zero_inWidth c.w
    | .pc => exact zero_inWidth _
    | .stkTop | .stkBot | .ir => exact hreset
  case hidden => rcases e with (_ | _ | _) | (_ | _) | _ | _ | (_ | _) | _ <;> exact hreset
  case cell =>
    simp only [resetOf, Memory.filled] at hcell
    split at hcell
    · cases hcell
    · obtain ⟨a, -, rfl⟩ := List.mem_map.mp hcell
      exact hfill

/-- Settles O2: the default parameters are legal. -/
theorem resetMeetsInvariant : Obligations.ResetMeetsInvariant := State.resetOf_inv Tests.witness_parameters_legal.1

/-! ### The two forms of a cycle -/

/-- How the cycle goes on in RUNNING: by what DECODE finds, or with the fault FETCH took. -/
theorem State.cycle_running {s : State} (hrun : s.run = .running) :
    s.cycle = if s.valid s.pc then s.fetch.decodeExecute else s.fetch := by
  cases hv : s.valid s.pc with
  | true => simp only [cycle, hrun, State.fetch_valid_run hv, if_true]
  | false => simp [cycle, hrun, State.fetch_invalid hv]

theorem State.cycle_stopped {s : State} (hrun : s.run ≠ .running) : s.cycle = s := by
  cases h : s.run with
  | running => exact absurd h hrun
  | halted | faulted f => simp only [cycle, h]

theorem step_stopped {s : State} (hrun : s.run ≠ .running) : step s = .next s := by
  cases h : s.run with
  | running => exact absurd h hrun
  | halted | faulted f => simp only [step, h]

/-- A micro-operation that leaves PC and main memory, whatever SEL holds. -/
def MicroOp.keepsPcAndMem : MicroOp → Bool
  | .st x _ => decide (x ≠ .pc)
  | .rselSt _ | .memStd => false
  | _ => true

theorem MicroOp.not_mem_writtenRegs_pc {m : MicroOp} (hm : m.keepsPcAndMem = true) (c : Config) (i : Int) :
    Reg.pc ∉ m.writtenRegs c i := by
  cases m
  case st x b => simpa [writtenRegs] using (of_decide_eq_true hm : x ≠ .pc).symm
  case rselSt => cases hm
  all_goals exact List.not_mem_nil

/-- `u` is at operand `k` of the instruction that FETCH brought in `s`: PC has counted on to it, and memory is as it was. -/
def AtCell (s : State) (k : Int) (u : State) : Prop := u.cfg = s.cfg ∧ u.mem = s.mem ∧ u.pc = s.after k

section
variable {s u : State} {k : Int} {rest rest' : List MicroOp}

/-- After the first PCINC. -/
theorem runSeq_congr_first (h : ∀ w, AtCell s 1 w → runSeq rest w = runSeq rest' w) :
    runSeq (pcinc ++ rest) s = runSeq (pcinc ++ rest') s := by
  rw [runSeq_pcinc_append, runSeq_pcinc_append]
  exact h _ ⟨rfl, rfl, rfl⟩

/-- After a later PCINC. -/
theorem runSeq_congr_pcinc (hu : AtCell s k u) (h : ∀ w, AtCell s (k + 1) w → runSeq rest w = runSeq rest' w) :
    runSeq (pcinc ++ rest) u = runSeq (pcinc ++ rest') u := by
  obtain ⟨hcfg, hmem, hpc⟩ := hu
  rw [runSeq_pcinc_append, runSeq_pcinc_append]
  exact h _ ⟨hcfg, hmem, State.after_of_pc hcfg hpc 1⟩

/-- The operand that DECODE delivers is the one OPFETCH reads (R132). -/
theorem runSeq_congr_opfetch (hu : AtCell s k u) (h : ∀ w, AtCell s k w → runSeq rest w = runSeq rest' w) :
    runSeq (opfetch (.operandRead (s.operandCell k)) ++ rest) u = runSeq (opfetch .memRead ++ rest') u := by
  obtain ⟨hcfg, hmem, hpc⟩ := hu
  rw [runSeq_opfetch_operand_append, runSeq_opfetch_memRead_append]
  split
  case isFalse => rfl
  case isTrue hv =>
    have hcell : s.operandCell k = u.cell u.pc := by
      rw [hcfg, hpc] at hv
      rw [State.operandCell, if_pos hv, State.cell, State.cell, hmem, hpc]
    rw [hcell]
    exact h _ ⟨hcfg, hmem, hpc⟩

/-- Micro-operations that use an operand leave PC and memory. -/
theorem runSeq_congr_use {use : List MicroOp} (huse : use.all MicroOp.keepsPcAndMem = true) (hu : AtCell s k u)
    (h : ∀ w, AtCell s k w → runSeq rest w = runSeq rest' w) : runSeq (use ++ rest) u = runSeq (use ++ rest') u := by
  induction use generalizing u with
  | nil => exact h u hu
  | cons m use ih =>
    obtain ⟨hm, huse⟩ := (Bool.and_eq_true _ _).mp (List.all_cons.symm.trans huse)
    obtain ⟨hcfg, hmem, hpc⟩ := hu
    cases hap : m.apply u with
    | error f => simp only [List.cons_append, runSeq_cons_error _ hap]
    | ok t =>
      have hpc' : t.pc = u.pc := MicroOp.apply_getReg (x := .pc) hap (MicroOp.not_mem_writtenRegs_pc hm _ _)
      have hmem' : t.mem = u.mem := MicroOp.apply_mem (by rintro rfl; cases hm) hap
      have hcfg' : t.cfg = u.cfg := (MicroOp.apply_run_cfg hap).2
      simp only [List.cons_append, runSeq_cons_ok _ hap]
      exact ih huse ⟨hcfg'.trans hcfg, hmem'.trans hmem, hpc'.trans hpc⟩

/-- One operand. -/
theorem runSeq_congr_one (rest : List MicroOp) : runSeq (pcinc ++ (opfetch (.operandRead (s.operandCell 1)) ++ rest)) s =
    runSeq (pcinc ++ (opfetch .memRead ++ rest)) s :=
  runSeq_congr_first fun _ h1 => runSeq_congr_opfetch h1 fun _ _ => rfl

/-- Two operands, the first used before the second is fetched. -/
theorem runSeq_congr_two {use : List MicroOp} (huse : use.all MicroOp.keepsPcAndMem = true)
    (h : ∀ w, AtCell s 2 w → runSeq rest w = runSeq rest' w) :
    runSeq (pcinc ++ (opfetch (.operandRead (s.operandCell 1)) ++ (use ++ (pcinc ++ (opfetch (.operandRead (s.operandCell 2)) ++ rest))))) s =
    runSeq (pcinc ++ (opfetch .memRead ++ (use ++ (pcinc ++ (opfetch .memRead ++ rest'))))) s :=
  runSeq_congr_first fun _ h1 => runSeq_congr_opfetch h1 fun _ h1 => runSeq_congr_use huse h1 fun _ h1 =>
    runSeq_congr_pcinc h1 fun _ h2 => runSeq_congr_opfetch h2 h

/-- The comparison in front of a branch. -/
theorem runSeq_congr_compare (target fallThrough : SelCell) (bit : FlagBit) :
    runSeq (compareSeq (.operandRead (s.operandCell 1)) (.operandRead (s.operandCell 2)) ++
      branchTail (.operandRead (s.operandCell 3)) target fallThrough bit) s =
    runSeq (compareSeq .memRead .memRead ++ branchTail .memRead target fallThrough bit) s := by
  simp only [compareSeq, branchTail, List.append_assoc]
  exact runSeq_congr_two rfl fun _ h2 => runSeq_congr_use rfl h2 fun _ h2 =>
    runSeq_congr_pcinc h2 fun _ h3 => runSeq_congr_opfetch h3 fun _ _ => rfl

end

/-- EXECUTE of what the window decodes to is EXECUTE of the printed sequence (R133): every operand is memory's own cell. -/
theorem exec_of_window {s : State} {m : Mnemonic} {i : Instr}
    (h : assemble m [s.operandCell 1, s.operandCell 2, s.operandCell 3] = some i) :
    exec i s = .next (runSelected (microSeq s.cfg m) s) := by
  cases m <;> cases h <;> refine congrArg Host.Outcome.next ?_
  case inc | imulMemReg | imulRegMem | imulRegReg => rfl
  case jeq | jneq | jgt | jlw => exact runSeq_congr_compare _ _ _
  case jmp => 
    simp only [microSeq]
    cases s.cfg.jmpMode <;> exact runSeq_congr_one _
  all_goals simp only [runSelected, microSeq, accSeq, regRegSeq, memRegSeq, regMemSeq, immRegSeq, incRegSeq, moveMemRegSeq, moveRegMemSeq,
    moveRegRegSeq, moveImmRegSeq, readSeq, storeSeq, ldiSeq, flagJumpSeq, branchTail, List.append_assoc]
  case add | sub | incReg | jz | jn | read | store | ldi => exact runSeq_congr_one _
  case addRegMem | subRegMem =>
    exact runSeq_congr_two rfl fun _ h2 => runSeq_congr_use rfl h2 fun _ h2 => runSeq_congr_opfetch h2 fun _ _ => rfl
  all_goals exact runSeq_congr_two rfl fun _ _ => rfl

/-- Settles O25: a PC out of range and an unmatched opcode end both alike; a matched one executes its printed sequence. -/
theorem stepIsMicroSequenceCycle : Obligations.StepIsMicroSequenceCycle := by
  intro s
  by_cases hrun : s.run = .running
  case neg => rw [step_stopped hrun, State.cycle_stopped hrun]
  case pos =>
    rw [State.cycle_running hrun]
    cases hv : s.valid s.pc with
    | false => rw [step_pc_invalid hrun hv, State.fetch_invalid hv]; rfl
    | true =>
      rw [if_pos rfl, State.decodeExecute]
      cases hm : decodeOpcode s.fetch.cfg.opcodeMap s.fetch.ir with
      | none => exact step_rejected hrun hv (decodeWith_window_unmatched hm)
      | some m =>
        obtain ⟨i, hi⟩ := exists_assemble_eq_some m (s.fetch.operandCell 1) (s.fetch.operandCell 2) (s.fetch.operandCell 3)
        have hd := step_decoded hrun hv (i := i) (by simp only [State.window, decodeWith, hm, hi]; rfl)
        exact hd.trans (exec_of_window hi)

theorem step_eq_cycle {s t : State} : step s = .next t ↔ s.cycle = t := by
  rw [stepIsMicroSequenceCycle s, Host.Outcome.next.injEq]

/-! ### How a step begins, and where a run stops -/

/-- Settles O21: FETCH leaves the opcode cell in IR, so the window is the four cells. -/
theorem stepRunsDecoded : Obligations.StepRunsDecoded := by
  refine fun s i rest hrun hv => ⟨fun hd => ?_, fun k hk => if_pos hk⟩
  rw [← State.fetch_valid hv]
  refine step_decoded hrun hv (rest := rest) ?_
  rw [State.fetch_valid hv]
  exact hd

/-- Settles O23. -/
theorem fetchOutOfRangeFaults : Obligations.FetchOutOfRangeFaults :=
  fun _ hrun hout => step_pc_invalid hrun ((validAddr_eq_false_iff _ _).mpr hout)

/-- Settles O24, by induction on the number of steps. -/
theorem terminalStatesStay : Obligations.TerminalStatesStay := by
  intro s k hs
  refine ⟨?_, rfl⟩
  induction k with
  | zero => rfl
  | succ k ih =>
    have hstep : core.step s = .next s := step_stopped hs
    simp only [Host.Core.run, hstep, ih]

/-! ### What every step keeps -/

theorem runSelected_cfg (sel : Option (List MicroOp)) (s : State) : (runSelected sel s).cfg = s.cfg := by
  cases sel with
  | none => rfl
  | some seq => exact (runSeq_run_cfg seq s).1

theorem State.decodeExecute_cfg (s : State) : s.decodeExecute.cfg = s.cfg := by
  simp only [decodeExecute]
  split
  exacts [runSelected_cfg _ s, rfl]

theorem State.fetch_cfg (s : State) : s.fetch.cfg = s.cfg := (runSeq_run_cfg fetchSeq s).1

theorem State.Inv.fetch {s : State} (h : s.Inv) : s.fetch.Inv := runSeq_inv (by decide) h

/-- Settles O26: every micro-operation of the printed sequences keeps the invariant. -/
theorem stepKeepsInvariant : Obligations.StepKeepsInvariant := by
  intro s t h ht
  obtain rfl := step_eq_cycle.mp ht
  by_cases hrun : s.run = .running
  case neg => rw [State.cycle_stopped hrun]; exact ⟨h, rfl⟩
  case pos =>
    rw [State.cycle_running hrun]
    split
    · exact ⟨h.fetch.decodeExecute, (s.fetch.decodeExecute_cfg).trans s.fetch_cfg⟩
    · exact ⟨h.fetch, s.fetch_cfg⟩

/-! ### Hidden state (R41, R251) -/

/-- The state with its hidden elements blanked, IR kept: what a micro-operation can depend on beside the elements it gets. -/
def State.unhidden (s : State) : State :=
  { s with ext := 0, int1 := 0, int2 := 0, s0 := 0, s1 := 0, sel := 0, memAL := 0, selmem0 := 0, selmem1 := 0, selAL := 0 }

/-- Two states that differ at most in hidden elements outside `written`. -/
def Agree (written : List Hidden) (s t : State) : Prop := s.unhidden = t.unhidden ∧ ∀ e ∈ written, s.hidden e = t.hidden e

theorem State.unhidden_setHidden (s : State) (e : Hidden) (v : Int) : (s.setHidden e v).unhidden = s.unhidden := by
  rcases e with (_ | _ | _) | (_ | _) | _ | _ | (_ | _) | _ <;> rfl

section
variable {written : List Hidden} {s t : State} (h : Agree written s t)
include h

theorem Agree.getReg (x : Reg) : s.getReg x = t.getReg x := by
  have hx := congrArg (State.getReg · x) h.1
  cases x <;> exact hx

theorem Agree.flags : s.flags = t.flags := congrArg (·.flags) h.1
theorem Agree.cfg : s.cfg = t.cfg := congrArg (·.cfg) h.1
theorem Agree.cell (a : Int) : s.cell a = t.cell a := congrArg (State.cell · a) (a₁ := s.unhidden) (a₂ := t.unhidden) h.1

/-- A micro-operation that gets hidden elements agreed on plans the same in both states. -/
theorem Agree.plan {m : MicroOp} (hgets : ∀ e ∈ m.gets, e ∈ written) : m.plan s = m.plan t := by
  have hget (e) (he : e ∈ m.gets) : s.hidden e = t.hidden e := h.2 e (hgets e he)
  cases m
  case rd | flagsBit => simp only [MicroOp.plan, h.getReg, h.flags]
  case st x b =>
    have hbus : s.getBus b = t.getBus b := hget (.bus b) (.head _)
    simp only [MicroOp.plan, hbus]
  case rselRd b =>
    have hsel : s.sel = t.sel := hget .sel (.head _)
    simp only [MicroOp.plan, hsel, h.cfg, h.getReg]
  case rselSt b =>
    have hsel : s.sel = t.sel := hget .sel (.head _)
    have hbus : s.getBus b = t.getBus b := hget (.bus b) (.tail _ (.head _))
    simp only [MicroOp.plan, hsel, hbus, h.cfg]
  case aluSt1 =>
    have hint1 : s.int1 = t.int1 := hget (.bus .int1) (.head _)
    simp only [MicroOp.plan, hint1]
  case aluSt2 | flagsUpd =>
    have hint2 : s.int2 = t.int2 := hget (.bus .int2) (.head _)
    simp only [MicroOp.plan, hint2]
  case aluRd1 k | aluRd2 k =>
    have hslot : s.getSlot k = t.getSlot k := hget (.slot k) (.head _)
    simp only [MicroOp.plan, hslot]
  case aluInc =>
    have hs1 : s.s1 = t.s1 := hget (.slot .slot1) (.head _)
    simp only [MicroOp.plan, hs1, h.cfg]
  case aluAdd | aluSub =>
    have hs0 : s.s0 = t.s0 := hget (.slot .slot0) (.head _)
    have hs1 : s.s1 = t.s1 := hget (.slot .slot1) (.tail _ (.head _))
    simp only [MicroOp.plan, hs0, hs1, h.cfg]
  case memStd =>
    have hmemAL : s.memAL = t.memAL := hget .memAL (.head _)
    have hext : s.ext = t.ext := hget (.bus .ext) (.tail _ (.head _))
    simp only [MicroOp.plan, State.valid, hmemAL, hext, h.cfg]
  case selmemStd =>
    have hselAL : s.selAL = t.selAL := hget .selAL (.head _)
    have hext : s.ext = t.ext := hget (.bus .ext) (.tail _ (.head _))
    simp only [MicroOp.plan, hselAL, hext]
  case selmemRead =>
    have hext : s.ext = t.ext := hget (.bus .ext) (.head _)
    have hcell (c) : s.getSelCell c = t.getSelCell c := hget (.selCell c) (by cases c <;> decide)
    simp only [MicroOp.plan, hext, hcell]
  all_goals
    have hext : s.ext = t.ext := hget (.bus .ext) (.head _)
    simp only [MicroOp.plan, State.valid, hext, h.cfg, h.cell]

/-- The same write keeps the agreement, and a hidden element written is one more to agree on. -/
theorem Agree.perform_hidden (e : Hidden) (v : Int) : Agree (e :: written) (s.setHidden e v) (t.setHidden e v) := by
  refine ⟨by rw [s.unhidden_setHidden, t.unhidden_setHidden, h.1], fun e' he' => ?_⟩
  by_cases heq : e' = e
  · rw [heq, s.hidden_setHidden_same, t.hidden_setHidden_same]
  · rw [s.hidden_setHidden_ne _ _ heq, t.hidden_setHidden_ne _ _ heq]
    exact h.2 e' (List.mem_of_ne_of_mem heq he')

theorem Agree.mono {fewer : List Hidden} (hsub : ∀ e ∈ fewer, e ∈ written) : Agree fewer s t :=
  ⟨h.1, fun e he => h.2 e (hsub e he)⟩

theorem Agree.perform {m : MicroOp} {w : Write} (hw : m.MayPerform s w) : Agree (m.makes ++ written) (s.perform w) (t.perform w) := by
  match w, hw with
  | .hidden e v, .inl hmakes => rw [hmakes]; exact h.perform_hidden e v
  | .hidden e v, .inr hm => subst hm; exact (h.perform_hidden e v).mono fun _ => List.mem_cons_of_mem e
  | .reg x v, ⟨hmakes, _⟩ =>
    rw [hmakes]
    refine ⟨?_, fun e he => by simpa [State.perform] using h.2 e he⟩
    have hu := congrArg (State.setReg · x v) h.1
    cases x <;> exact hu
  | .flags r, hm =>
    subst hm
    refine ⟨congrArg (fun u : State => { u with flags := flagsOf r }) h.1, fun e he => ?_⟩
    have hu := h.2 e he
    cases e <;> exact hu
  | .cell a v, ⟨hm, _⟩ =>
    subst hm
    refine ⟨congrArg (State.setCell · a v) h.1, fun e he => ?_⟩
    have hu := h.2 e he
    cases e <;> exact hu

end

/-- R251 at work: a sequence that writes every hidden element before it reads it does the same to both states. -/
theorem runSeq_agree {seq : List MicroOp} {written : List Hidden} (hfresh : fresh written seq = true) {s t : State}
    (h : Agree written s t) : (runSeq seq s).unhidden = (runSeq seq t).unhidden := by
  induction seq generalizing written s t with
  | nil => exact h.1
  | cons m rest ih =>
    obtain ⟨hgets, hrest⟩ : (∀ e ∈ m.gets, e ∈ written) ∧ fresh (m.makes ++ written) rest = true := by simpa [fresh] using hfresh
    have hplan := h.plan hgets
    rw [runSeq_cons, runSeq_cons, ← hplan]
    cases hw : m.plan s with
    | error f => exact congrArg (State.raise f) h.1
    | ok w => exact ih hrest (h.perform (MicroOp.mayPerform_of_plan hw))

theorem State.visible_eq_of_unhidden {s t : State} (h : s.unhidden = t.unhidden) : s.visible = t.visible :=
  congrArg (fun u : State => { u with ir := 0 }) h

/-- Whether FETCH completes is visible. -/
theorem State.valid_pc_of_visible {s t : State} (h : s.visible = t.visible) : s.valid s.pc = t.valid t.pc :=
  congrArg (fun u : State => u.valid u.pc) (a₁ := s.visible) (a₂ := t.visible) h

/-- FETCH overwrites IR and EXT from what is visible. -/
theorem agree_fetch {s t : State} (hvis : s.visible = t.visible) (h : s.valid s.pc = true) : Agree [.bus .ext] s.fetch t.fetch := by
  have hcell : s.cell s.pc = t.cell t.pc := 
    congrArg (fun u : State => u.cell u.pc) (a₁ := s.visible) (a₂ := t.visible) hvis
  rw [State.fetch_valid h, State.fetch_valid (State.valid_pc_of_visible hvis ▸ h), ← hcell]
  refine ⟨congrArg (fun u : State => { u with ir := s.cell s.pc }) hvis, fun e he => ?_⟩
  rw [List.mem_singleton.mp he]
  rfl

/-- R251: after FETCH, a printed sequence writes every hidden element before it reads it. -/
theorem microSeq_fresh {c : Config} {m : Mnemonic} {seq : List MicroOp} (h : microSeq c m = some seq) :
    fresh [.bus .ext, .bus .ext] seq = true := by
  obtain ⟨hfresh, -, -⟩ := sequencesKeepTheDiscipline c m seq h
  simpa [fetchSeq, fresh, MicroOp.gets, MicroOp.makes] using hfresh

theorem Agree.decodeExecute {s t : State} (h : Agree [.bus .ext] s t) : s.decodeExecute.unhidden = t.decodeExecute.unhidden := by
  have hir : s.ir = t.ir := h.getReg .ir
  simp only [State.decodeExecute, h.cfg, hir]
  split
  case h_2 => exact congrArg State.halt h.1
  case h_1 m _ =>
    cases hseq : microSeq t.cfg m with
    | none => exact congrArg (State.raise .notImplemented) h.1
    | some seq => exact runSeq_agree (microSeq_fresh hseq) (h.mono (by simp))

/-- Settles O27: FETCH overwrites IR from what is visible; after it, the printed sequence reads no hidden element it has not written. -/
theorem hiddenStateNeverInfluences : Obligations.HiddenStateNeverInfluences := by
  intro s t s' hvis hstep
  obtain rfl := step_eq_cycle.mp hstep
  refine ⟨t.cycle, step_eq_cycle.mpr rfl, ?_⟩
  have hrun : s.run = t.run := congrArg (·.run) hvis
  have hvalid := State.valid_pc_of_visible hvis
  by_cases hs : s.run = .running
  case neg => rw [State.cycle_stopped hs, State.cycle_stopped (hrun ▸ hs), hvis]
  case pos =>
    rw [State.cycle_running hs, State.cycle_running (hrun ▸ hs), ← hvalid]
    cases hv : s.valid s.pc with
    | true => exact State.visible_eq_of_unhidden (agree_fetch hvis hv).decodeExecute
    | false =>
      rw [State.fetch_invalid hv, State.fetch_invalid (hvalid ▸ hv)]
      exact congrArg (State.raise .fatalAddressing) hvis

end Sys2Proof.Machine
end

section
/-! Running a sequence block by block (R110, R221): what each block of the printed sequences does where it completes, and where it faults. -/

namespace Sys2Proof.Machine

open Sys2Proof.Claims MicroOp

/-- From `s` the sequence completes and leaves `t`. -/
def Completes (seq : List MicroOp) (s t : State) : Prop := ∀ rest, runSeq (seq ++ rest) s = runSeq rest t

/-- From `s` the sequence takes the fault `f` in the state `t`. -/
def Faults (seq : List MicroOp) (s t : State) (f : Fault) : Prop := ∀ rest, runSeq (seq ++ rest) s = t.raise f

section
variable {a b : List MicroOp} {m : MicroOp} {s u t : State} {f : Fault}

theorem Completes.run (h : Completes a s t) : runSeq a s = t := by simpa using h []

theorem Faults.run (h : Faults a s t f) : runSeq a s = t.raise f := by simpa using h []

/-- As EXECUTE answers it. -/
theorem Completes.next (h : Completes a s t) : (.next (runSeq a s) : Host.Outcome State Fault Refusal) = .next t := congrArg _ h.run

theorem Faults.next (h : Faults a s t f) : (.next (runSeq a s) : Host.Outcome State Fault Refusal) = .next (t.raise f) := congrArg _ h.run

theorem Completes.append (ha : Completes a s u) (hb : Completes b u t) : Completes (a ++ b) s t :=
  fun rest => by rw [List.append_assoc, ha, hb]

theorem Completes.append_faults (ha : Completes a s u) (hb : Faults b u t f) : Faults (a ++ b) s t f :=
  fun rest => by rw [List.append_assoc, ha, hb]

/-- What follows a fault is not run. -/
theorem Faults.append (b : List MicroOp) (h : Faults a s t f) : Faults (a ++ b) s t f :=
  fun rest => by rw [List.append_assoc, h]

theorem Completes.cons (hm : m.apply s = .ok u) (h : Completes a u t) : Completes (m :: a) s t :=
  fun rest => (runSeq_cons_ok (a ++ rest) hm).trans (h rest)

theorem Faults.cons (hm : m.apply s = .ok u) (h : Faults a u t f) : Faults (m :: a) s t f :=
  fun rest => (runSeq_cons_ok (a ++ rest) hm).trans (h rest)

theorem Faults.head (a : List MicroOp) (hm : m.apply s = .error f) : Faults (m :: a) s s f :=
  fun rest => runSeq_cons_error (a ++ rest) hm

end

/-! ### PCINC and OPFETCH -/

theorem completes_pcinc (u : State) : Completes pcinc u (closed u) := fun rest => runSeq_pcinc_append rest u

section
variable {u : State} (v : Int)

theorem completes_opfetch (h : u.valid u.pc = true) : Completes (opfetch (.operandRead v)) u { u with ext := v } :=
  fun rest => by rw [runSeq_opfetch_operand_append, if_pos h]

theorem faults_opfetch (h : u.valid u.pc = false) : Faults (opfetch (.operandRead v)) u { u with ext := u.pc } .fatalAddressing :=
  fun rest => by rw [runSeq_opfetch_operand_append, if_neg (by simp [h])]; rfl

end

section
variable {s : State} (v : Int)

theorem completes_operand (h : s.valid (s.after 1) = true) : Completes (pcinc ++ opfetch (.operandRead v)) s (atOperand s 1 v) :=
  (completes_pcinc s).append (completes_opfetch v (u := closed s) h)

theorem faults_operand (h : s.valid (s.after 1) = false) :
    Faults (pcinc ++ opfetch (.operandRead v)) s (atOperand s 1 (s.after 1)) .fatalAddressing :=
  (completes_pcinc s).append_faults (faults_opfetch v (u := closed s) h)

section
variable {seq : List MicroOp} {u : State} {k l : Int} (hseq : Completes seq s u) (hcfg : u.cfg = s.cfg) (hpc : u.pc = s.after k) (hl : k + 1 = l)
include hseq hcfg hpc hl

/-- From a state at operand `k`, PCINC counts on; `l` is the numeral `k + 1`. -/
theorem Completes.pcinc_next : Completes (seq ++ pcinc) s { u with pc := s.after l, int2 := s.after l, s1 := s.after l } := by
  subst hl
  rw [← State.after_of_pc hcfg hpc]
  exact hseq.append (completes_pcinc u)

/-- From a state at operand `k`, the next operand. -/
theorem Completes.operand (h : s.valid (s.after l) = true) :
    Completes (seq ++ pcinc ++ opfetch (.operandRead v)) s { u with pc := s.after l, int2 := s.after l, s1 := s.after l, ext := v } :=
  (hseq.pcinc_next hcfg hpc hl).append (completes_opfetch v (by rwa [State.valid, hcfg]))

theorem Completes.faults_operand (h : s.valid (s.after l) = false) :
    Faults (seq ++ pcinc ++ opfetch (.operandRead v)) s
      { u with pc := s.after l, int2 := s.after l, s1 := s.after l, ext := s.after l } .fatalAddressing :=
  (hseq.pcinc_next hcfg hpc hl).append_faults (faults_opfetch v (by rwa [State.valid, hcfg]))

end

end

/-! ### Selected registers -/

/-- Only the five register fields matter to a register. -/
theorem State.getReg_congr {s t : State} (hrpg : s.rpg = t.rpg) (htop : s.stkTop = t.stkTop) (hbot : s.stkBot = t.stkBot)
    (hpc : s.pc = t.pc) (hir : s.ir = t.ir) (x : Reg) : s.getReg x = t.getReg x := by
  rw [getReg_eq_pick, getReg_eq_pick, hrpg, htop, hbot, hpc, hir]

theorem State.getReg_congr_of_ne_pc {s t : State} (hrpg : s.rpg = t.rpg) (htop : s.stkTop = t.stkTop) (hbot : s.stkBot = t.stkBot)
    (hir : s.ir = t.ir) {x : Reg} (hx : x ≠ .pc) : s.getReg x = t.getReg x := by
  match x, hx with
  | .rpg k, _ => exact congrArg (List.getD · k 0) hrpg
  | .stkTop, _ => exact htop
  | .stkBot, _ => exact hbot
  | .ir, _ => exact hir

section
variable {u : State} {x : Reg} {b : Bus}

theorem selectOn_of_selects {i : Int} (h : Selects u b i x) : selectOn u.cfg b i = .ok x := selectOn_of_wired h.1 h.2

theorem rselRd_apply_selects (h : Selects u b u.sel x) : (rselRd b).apply u = .ok (u.putBus b (u.getReg x)) :=
  (rsel_apply_ok (selectOn_of_selects h)).1

theorem rselSt_apply_selects (h : Selects u b u.sel x) : (rselSt b).apply u = .ok (u.setReg x (u.getBus b)) :=
  (rsel_apply_ok (selectOn_of_selects h)).2

variable {v : Int} (hv : u.getReg x = v)
include hv

/-- A selected register into slot 0. -/
theorem completes_select_slot0 (h : Selects u .int1 u.ext x) :
    Completes [selSet, rselRd .int1, aluSt1 .slot0] u { u with sel := u.ext, int1 := v, s0 := v } := by
  subst hv
  exact .cons (u := { u with sel := u.ext }) rfl (.cons (rselRd_apply_selects h) fun _ => by cases x <;> rfl)

/-- A selected register into slot 1. -/
theorem completes_select_slot1 (h : Selects u .int2 u.ext x) :
    Completes [selSet, rselRd .int2, aluSt2 .slot1] u { u with sel := u.ext, int2 := v, s1 := v } := by
  subst hv
  exact .cons (u := { u with sel := u.ext }) rfl (.cons (rselRd_apply_selects h) fun _ => by cases x <;> rfl)

omit hv

/-- A bus into the selected register. -/
theorem completes_rselSt (h : Selects u b u.sel x) : Completes [rselSt b] u (u.setReg x (u.getBus b)) :=
  .cons (rselSt_apply_selects h) fun _ => rfl

end

/-! ### The ALU -/

/-- The ALU operation computes `g` of the two slots, wrapped (R122 to R124). -/
def Computes (op : MicroOp) (g : Int → Int → Int) : Prop := ∀ u : State, op.apply u = .ok { u with s1 := wrap u.cfg.w (g u.s0 u.s1) }

theorem computes_add : Computes aluAdd (· + ·) := fun _ => rfl
theorem computes_sub : Computes aluSub (· - ·) := fun _ => rfl
theorem computes_inc : Computes aluInc (fun _ y => y + 1) := fun _ => rfl

/-- The result goes to slot 1, INT2 and the flags. -/
theorem completes_aluResult {op : MicroOp} {g : Int → Int → Int} (hop : Computes op g) (u : State) :
    Completes (aluResult op) u { u with s1 := wrap u.cfg.w (g u.s0 u.s1), int2 := wrap u.cfg.w (g u.s0 u.s1),
                                        flags := flagsOf (wrap u.cfg.w (g u.s0 u.s1)) } :=
  .cons (hop u) fun _ => rfl

/-- The closing PCINC overwrites INT2 and slot 1, whatever they held. -/
theorem closed_setReg (u : State) (x : Reg) (r i t : Int) : closed (u.setReg x r) = closed (State.setReg { u with int2 := i, s1 := t } x r) := by
  cases x <;> rfl

section
variable {op : MicroOp} {g : Int → Int → Int} {seq : List MicroOp} {s u : State} (hop : Computes op g) (hseq : Completes seq s u)
include hop hseq

/-- The end of an arithmetic sequence: the result, from INT2 into the destination by the micro-operation `m`, and the closing PCINC. -/
theorem Completes.result {m : MicroOp} {x : Reg} {i t r : Int} (hr : wrap u.cfg.w (g u.s0 u.s1) = r)
    (hm : m.apply { u with s1 := r, int2 := r, flags := flagsOf r } =
      .ok (State.setReg { u with s1 := r, int2 := r, flags := flagsOf r } x r)) :
    Completes (seq ++ aluResult op ++ [m] ++ pcinc) s (closed (State.setReg { u with flags := flagsOf r, int2 := i, s1 := t } x r)) := by
  subst hr
  have hend := hseq.append (completes_aluResult hop u) |>.append (.cons (a := []) hm fun _ => rfl) |>.append (completes_pcinc _)
  rwa [closed_setReg (i := i) (t := t)] at hend

/-- The second half of the arithmetic with a register as second operand: `u` is at operand 1, with the minuend in slot 0. -/
theorem Completes.into_register {ib v r i t : Int} {x : Reg} (hcfg : u.cfg = s.cfg) (hpc : u.pc = s.after 1)
    (h2 : s.valid (s.after 2) = true) (hx : Selects u .int2 ib x) (hv : State.getReg { u with pc := s.after 2 } x = v)
    (hr : wrap u.cfg.w (g u.s0 v) = r) :
    Completes (seq ++ pcinc ++ opfetch (operandRead ib) ++ [selSet, rselRd .int2, aluSt2 .slot1] ++ aluResult op ++ [rselSt .int2] ++ pcinc) s
      (closed (State.setReg { u with pc := s.after 2, ext := ib, sel := ib, flags := flagsOf r, int2 := i, s1 := t } x r)) := by
  have hload := (hseq.operand ib hcfg hpc rfl h2).append (completes_select_slot1 ((State.getReg_congr rfl rfl rfl rfl rfl x).trans hv) hx)
  exact hload.result hop hr (rselSt_apply_selects hx)

end

/-! ### Over EXT -/

section
variable {u : State}

/-- A selected register onto EXT; every integer register is wired to it (R28). -/
theorem rselRd_ext_apply {x : Reg} {v : Int} (h : resolve u.cfg u.sel = some (.reg x)) (hv : u.getReg x = v) :
    (rselRd .ext).apply u = .ok { u with ext := v } :=
  hv ▸ rselRd_apply_selects ⟨h, FileEntry.wired_ext x⟩

/-- The second half of the moves into a register: `u` is at operand 1, with the datum waiting in IR. -/
theorem Completes.deposit {seq : List MicroOp} {s : State} {ib : Int} {x : Reg} (hseq : Completes seq s u) (hcfg : u.cfg = s.cfg)
    (hpc : u.pc = s.after 1) (h2 : s.valid (s.after 2) = true) (hx : resolve u.cfg ib = some (.reg x)) :
    Completes (seq ++ pcinc ++ opfetch (operandRead ib) ++ [selSet, rd .ir .ext, rselSt .ext] ++ pcinc) s
      (closed (State.setReg { u with pc := s.after 2, int2 := s.after 2, s1 := s.after 2, sel := ib, ext := u.ir } x u.ir)) := by
  have hstore := (hseq.operand ib hcfg hpc rfl h2).append (b := [selSet, rd .ir .ext, rselSt .ext])
    (.cons rfl (.cons rfl (completes_rselSt (x := x) ⟨hx, FileEntry.wired_ext x⟩)))
  exact hstore.append (completes_pcinc _)

end

/-! ### Main memory -/

section
variable {u : State}

theorem memRead_apply_valid {v : Int} (h : u.valid u.ext = true) (hv : u.cell u.ext = v) : memRead.apply u = .ok { u with ext := v } :=
  hv ▸ u.memRead_valid h

end

end Sys2Proof.Machine
end

section
/-! Proofs about the arithmetic instructions (41_arith.md): what each leaves where it completes. -/

namespace Sys2Proof.Machine

open Sys2Proof.Claims MicroOp

section
variable {op : MicroOp} {g : Int → Int → Int} (hop : Computes op g) {s : State} (h1 : s.valid (s.after 1) = true)
include hop h1

/-- R150, R151. -/
theorem accSeq_completes {a : Int} (ha : s.valid a = true) (hc : s.valid (s.cell a) = true) :
    let v := s.cell (s.cell a)
    let acc := s.getReg (.rpg 0)
    let r := wrap s.cfg.w (g acc v)
    Completes (accSeq op (operandRead a)) s
      (closed (State.setReg { atOperand s 1 v with ir := v, int1 := acc, s0 := acc, flags := flagsOf r } (.rpg 0) r)) := by
  intro v acc r
  have hload : Completes (pcinc ++ opfetch (operandRead a) ++
      [memRead, memRead, st .ir .ext, rd (.rpg 0) .int1, aluSt1 .slot0, rd .ir .int2, aluSt2 .slot1]) s
      { atOperand s 1 v with ir := v, int1 := acc, s0 := acc, int2 := v, s1 := v } :=
    (completes_operand a h1).append (.cons (memRead_apply_valid ha rfl) (.cons (memRead_apply_valid hc rfl) fun _ => rfl))
  exact hload.result hop rfl rfl

variable (h2 : s.valid (s.after 2) = true)
include h2

/-- R152, R153. -/
theorem regRegSeq_completes {ia ib : Int} {ra rb : Reg} (ha : Selects s .int1 ia ra) (hb : Selects s .int2 ib rb) :
    let va := State.getReg { s with pc := s.after 1 } ra
    let vb := State.getReg { s with pc := s.after 2 } rb
    let r := wrap s.cfg.w (g va vb)
    Completes (regRegSeq op (operandRead ia) (operandRead ib)) s
      (closed (State.setReg { atOperand s 2 ib with int1 := va, s0 := va, sel := ib, flags := flagsOf r } rb r)) := by
  intro va vb r
  have hfirst : Completes _ s { atOperand s 1 ia with sel := ia, int1 := va, s0 := va } :=
    (completes_operand ia h1).append (completes_select_slot0 (State.getReg_congr rfl rfl rfl rfl rfl ra) ha)
  exact hfirst.into_register hop rfl rfl h2 hb (State.getReg_congr rfl rfl rfl rfl rfl rb) rfl

/-- R154, R155. -/
theorem memRegSeq_completes {a ir : Int} {x : Reg} (ha : s.valid a = true) (hx : Selects s .int2 ir x) :
    let m := s.cell a
    let vr := State.getReg { s with pc := s.after 2, ir := m } x
    let v := wrap s.cfg.w (g m vr)
    Completes (memRegSeq op (operandRead a) (operandRead ir)) s
      (closed (State.setReg { atOperand s 2 ir with ir := m, int1 := m, s0 := m, sel := ir, flags := flagsOf v } x v)) := by
  intro m vr v
  have hfirst : Completes (pcinc ++ opfetch (operandRead a) ++ [memRead, st .ir .ext, rd .ir .int1, aluSt1 .slot0]) s
      { atOperand s 1 m with ir := m, int1 := m, s0 := m } :=
    (completes_operand a h1).append (.cons (memRead_apply_valid ha rfl) fun _ => rfl)
  exact hfirst.into_register hop rfl rfl h2 hx (State.getReg_congr rfl rfl rfl rfl rfl x) rfl

/-- R158, R159. -/
theorem immRegSeq_completes {imm ir : Int} {x : Reg} (hx : Selects s .int2 ir x) :
    let vr := State.getReg { s with pc := s.after 2, ir := imm } x
    let v := wrap s.cfg.w (g imm vr)
    Completes (immRegSeq op (operandRead imm) (operandRead ir)) s
      (closed (State.setReg { atOperand s 2 ir with ir := imm, int1 := imm, s0 := imm, sel := ir, flags := flagsOf v } x v)) := by
  intro vr v
  have hfirst : Completes (pcinc ++ opfetch (operandRead imm) ++ [st .ir .ext, rd .ir .int1, aluSt1 .slot0]) s
      { atOperand s 1 imm with ir := imm, int1 := imm, s0 := imm } :=
    (completes_operand imm h1).append fun _ => rfl
  exact hfirst.into_register hop rfl rfl h2 hx (State.getReg_congr rfl rfl rfl rfl rfl x) rfl

/-- R156, R157. -/
theorem regMemSeq_completes {ir a : Int} {x : Reg} (ha : s.valid a = true) (hx : Selects s .int1 ir x) :
    let vr := State.getReg { s with pc := s.after 1 } x
    let m := s.cell a
    let v := wrap s.cfg.w (g vr m)
    Completes (regMemSeq op (operandRead ir) (operandRead a)) s
      (closed (State.setCell { atOperand s 2 v with ir := v, int1 := vr, s0 := vr, sel := ir, memAL := a, flags := flagsOf v } a v)) := by
  intro vr m v
  have hfirst : Completes _ s { atOperand s 1 ir with sel := ir, int1 := vr, s0 := vr } :=
    (completes_operand ir h1).append (completes_select_slot0 (State.getReg_congr rfl rfl rfl rfl rfl x) hx)
  have hload := (hfirst.operand a rfl rfl rfl h2).append (b := [memRead, st .ir .ext, rd .ir .int2, aluSt2 .slot1])
    (t := { atOperand s 2 m with sel := ir, int1 := vr, s0 := vr, ir := m, int2 := m, s1 := m })
    (.cons (memRead_apply_valid ha rfl) fun _ => rfl)
  have hresult := hload.append (completes_aluResult hop _) |>.append (b := [st .ir .int2])
    (t := { atOperand s 2 m with sel := ir, int1 := vr, s0 := vr, ir := v, int2 := v, s1 := v, flags := flagsOf v }) fun _ => rfl
  have hstore := hresult.append (completes_opfetch a h2) |>.append (b := [memSta, rd .ir .ext, memStd])
    (t := State.setCell { atOperand s 2 v with sel := ir, int1 := vr, s0 := vr, ir := v, int2 := v, s1 := v, flags := flagsOf v, memAL := a } a v)
    (.cons rfl (.cons rfl (.cons (State.memStd_valid _ ha) fun _ => rfl)))
  exact hstore.append (completes_pcinc _)

end

/-- R160. -/
theorem incSeq_completes (s : State) :
    let v := wrap s.cfg.w (s.getReg (.rpg 0) + 1)
    Completes incSeq s (closed (State.setReg { s with flags := flagsOf v } (.rpg 0) v)) := by
  intro v
  have hload : Completes [rd (.rpg 0) .int2, aluSt2 .slot1] s { s with int2 := s.getReg (.rpg 0), s1 := s.getReg (.rpg 0) } := fun _ => rfl
  exact hload.result computes_inc rfl rfl

/-- R161. -/
theorem incRegSeq_completes {s : State} {ir : Int} {x : Reg} (h1 : s.valid (s.after 1) = true) (hx : Selects s .int2 ir x) :
    let v := wrap s.cfg.w (State.getReg { s with pc := s.after 1 } x + 1)
    Completes (incRegSeq (operandRead ir)) s (closed (State.setReg { atOperand s 1 ir with sel := ir, flags := flagsOf v } x v)) := by
  intro v
  have hload := (completes_operand ir h1).append
    (completes_select_slot1 (State.getReg_congr (t := { s with pc := s.after 1 }) rfl rfl rfl rfl rfl x) hx)
  exact hload.result computes_inc rfl (rselSt_apply_selects hx)

/-! ### The obligations, by the run of each sequence -/

/-- Settles O28. -/
theorem addSubAccumulate : Obligations.AddSubAccumulate :=
  fun _ _ h1 ha hc => ⟨(accSeq_completes computes_add h1 ha hc).next,
    (accSeq_completes computes_sub h1 ha hc).next⟩

/-- Settles O29. -/
theorem regRegArithmetic : Obligations.RegRegArithmetic :=
  fun _ _ _ _ _ h1 h2 ha hb => ⟨(regRegSeq_completes computes_add h1 h2 ha hb).next,
    (regRegSeq_completes computes_sub h1 h2 ha hb).next⟩

/-- Settles O30. -/
theorem memRegArithmetic : Obligations.MemRegArithmetic :=
  fun _ _ _ _ h1 h2 ha hx => ⟨(memRegSeq_completes computes_add h1 h2 ha hx).next,
    (memRegSeq_completes computes_sub h1 h2 ha hx).next⟩

/-- Settles O31. -/
theorem regMemArithmetic : Obligations.RegMemArithmetic :=
  fun _ _ _ _ h1 h2 ha hx => ⟨(regMemSeq_completes computes_add h1 h2 ha hx).next,
    (regMemSeq_completes computes_sub h1 h2 ha hx).next⟩

/-- Settles O32. -/
theorem immRegArithmetic : Obligations.ImmRegArithmetic :=
  fun _ _ _ _ h1 h2 hx => ⟨(immRegSeq_completes computes_add h1 h2 hx).next,
    (immRegSeq_completes computes_sub h1 h2 hx).next⟩

/-- Settles O33. -/
theorem increments : Obligations.Increments :=
  ⟨fun s => (incSeq_completes s).next, fun _ _ _ h1 hx => (incRegSeq_completes h1 hx).next⟩

end Sys2Proof.Machine
end

section
/-! Proofs about the moves, loads and stores (42_move.md): what each leaves where it completes. -/

namespace Sys2Proof.Machine

open Sys2Proof.Claims MicroOp

section
variable {s : State} (h1 : s.valid (s.after 1) = true)
include h1

/-- R174. -/
theorem readSeq_completes {a : Int} (ha : s.valid a = true) (hc : s.valid (s.cell a) = true) :
    Completes (readSeq (operandRead a)) s (closed (State.setReg (atOperand s 1 (s.cell (s.cell a))) (.rpg 0) (s.cell (s.cell a)))) := by
  have hload := (completes_operand a h1).append (b := [memRead, memRead, st (.rpg 0) .ext])
    (.cons (memRead_apply_valid ha rfl) (.cons (memRead_apply_valid hc rfl) fun _ => rfl))
  exact hload.append (completes_pcinc _)

/-- R175. -/
theorem storeSeq_completes {a : Int} (ha : s.valid a = true) (hc : s.valid (s.cell a) = true) :
    Completes (storeSeq (operandRead a)) s (closed
      (State.setCell { atOperand s 1 (s.getReg (.rpg 0)) with memAL := s.cell a } (s.cell a) (s.getReg (.rpg 0)))) := by
  have hstore := (completes_operand a h1).append (b := [memRead, memSta, rd (.rpg 0) .ext, memStd])
    (.cons (memRead_apply_valid ha rfl) (.cons rfl (.cons rfl (.cons (State.memStd_valid _ hc) fun _ => rfl))))
  exact hstore.append (completes_pcinc _)

/-- R176. -/
theorem ldiSeq_completes (a : Int) : Completes (ldiSeq (operandRead a)) s (closed (State.setReg (atOperand s 1 a) (.rpg 0) a)) := by
  have hload := (completes_operand a h1).append (b := [st (.rpg 0) .ext]) fun _ => rfl
  exact hload.append (completes_pcinc _)

variable (h2 : s.valid (s.after 2) = true)
include h2

/-- R170. -/
theorem moveMemRegSeq_completes {a ir : Int} {x : Reg} (ha : s.valid a = true) (hx : resolve s.cfg ir = some (.reg x)) :
    Completes (moveMemRegSeq (operandRead a) (operandRead ir)) s
      (closed (State.setReg { atOperand s 2 (s.cell a) with ir := s.cell a, sel := ir } x (s.cell a))) := by
  have hfirst := (completes_operand a h1).append (b := [memRead, st .ir .ext])
    (t := { atOperand s 1 (s.cell a) with ir := s.cell a }) (.cons (memRead_apply_valid ha rfl) fun _ => rfl)
  exact hfirst.deposit rfl rfl h2 hx

/-- R172. -/
theorem moveRegRegSeq_completes {ia ib : Int} {ra rb : Reg} (ha : resolve s.cfg ia = some (.reg ra)) (hb : resolve s.cfg ib = some (.reg rb)) :
    let va := State.getReg { s with pc := s.after 1 } ra
    Completes (moveRegRegSeq (operandRead ia) (operandRead ib)) s
      (closed (State.setReg { atOperand s 2 va with ir := va, sel := ib } rb va)) := by
  intro va
  have hfirst := (completes_operand ia h1).append (b := [selSet, rselRd .ext, st .ir .ext])
    (t := { atOperand s 1 va with ir := va, sel := ia })
    (.cons rfl (.cons (rselRd_ext_apply ha (State.getReg_congr rfl rfl rfl rfl rfl ra)) fun _ => rfl))
  exact hfirst.deposit rfl rfl h2 hb

/-- R173. -/
theorem moveImmRegSeq_completes {imm ir : Int} {x : Reg} (hx : resolve s.cfg ir = some (.reg x)) :
    Completes (moveImmRegSeq (operandRead imm) (operandRead ir)) s
      (closed (State.setReg { atOperand s 2 imm with ir := imm, sel := ir } x imm)) := by
  have hfirst := (completes_operand imm h1).append (b := [st .ir .ext]) (t := { atOperand s 1 imm with ir := imm }) fun _ => rfl
  exact hfirst.deposit rfl rfl h2 hx

/-- R171. -/
theorem moveRegMemSeq_completes {ir a : Int} {x : Reg} (ha : s.valid a = true) (hx : resolve s.cfg ir = some (.reg x)) :
    let v := State.getReg { s with pc := s.after 2 } x
    Completes (moveRegMemSeq (operandRead ir) (operandRead a)) s
      (closed (State.setCell { atOperand s 2 v with sel := ir, memAL := a } a v)) := by
  intro v
  have hfirst := (completes_operand ir h1).append (b := [selSet]) (t := { atOperand s 1 ir with sel := ir }) fun _ => rfl
  have hstore := (hfirst.operand a rfl rfl rfl h2).append (b := [memSta, rselRd .ext, memStd])
    (t := State.setCell { atOperand s 2 v with sel := ir, memAL := a } a v)
    (.cons rfl (.cons (rselRd_ext_apply hx (State.getReg_congr rfl rfl rfl rfl rfl x)) (.cons (State.memStd_valid _ ha) fun _ => rfl)))
  exact hstore.append (completes_pcinc _)

end

/-! ### The obligations, by the run of each sequence -/

/-- Settles O34. -/
theorem moveMemRegCopies : Obligations.MoveMemRegCopies := fun _ _ _ _ h1 h2 ha hx => (moveMemRegSeq_completes h1 h2 ha hx).next

/-- Settles O35. -/
theorem moveRegMemStores : Obligations.MoveRegMemStores := fun _ _ _ _ h1 h2 ha hx => (moveRegMemSeq_completes h1 h2 ha hx).next

/-- Settles O36. -/
theorem moveRegRegCopies : Obligations.MoveRegRegCopies := fun _ _ _ _ _ h1 h2 ha hb => (moveRegRegSeq_completes h1 h2 ha hb).next

/-- Settles O37. -/
theorem moveImmRegLoads : Obligations.MoveImmRegLoads := fun _ _ _ _ h1 h2 hx => (moveImmRegSeq_completes h1 h2 hx).next

/-- Settles O38. -/
theorem accumulatorLoadStore : Obligations.AccumulatorLoadStore :=
  fun _ a h1 => ⟨fun ha hc => ⟨(readSeq_completes h1 ha hc).next, (storeSeq_completes h1 ha hc).next⟩, (ldiSeq_completes h1 a).next⟩

/-- Settles O39: `moveRegMem` (O35) leaves the register's value in the cell, and PC there (FETCH: O7). -/
theorem storeSeenByNextFetch : Obligations.StoreSeenByNextFetch := by
  intro s t ir x hwf h1 h2 h3 hx ht
  have ht := Host.Outcome.next.inj ((moveRegMemStores s ir _ x h1 h2 h3 hx).symm.trans ht)
  have hcfg : t.cfg = s.cfg := by rw [← ht]; rfl
  have hpc : t.pc = s.after 3 := by
    rw [← ht]; exact State.after_of_pc (s := s) (t := { s with pc := s.after 2 }) (k := 2) rfl rfl 1
  have hcell : t.cell (s.after 3) = State.getReg { s with pc := s.after 2 } x := by rw [← ht]; exact State.cell_setCell_same _ _ _ hwf
  have hvalid : t.valid t.pc = true := by rwa [State.valid, hcfg, hpc]
  exact ⟨by rw [State.fetch_valid hvalid, hpc]; exact hcell, hpc⟩

end Sys2Proof.Machine
end

section
/-! Proofs about the jumps (43_branch.md) and the multiply placeholders (44_imul.md): what each leaves. -/

namespace Sys2Proof.Machine

open Sys2Proof.Claims MicroOp

/-! ### The branch tail (R190) -/

/-- A jump taken if the condition fails is the jump with target and fall-through exchanged. -/
theorem jumped_not (u : State) (cond : Bool) (x y cell0 cell1 : Int) : jumped u (!cond) x y cell0 cell1 =
    { u with pc := if cond then y else x, ext := if cond then y else x, int2 := y, s1 := y, selmem0 := cell0, selmem1 := cell1 } := by
  cases cond <;> rfl

section
variable {u : State} (h1 : u.valid (u.after 1) = true) (a : Int) (bit : FlagBit)
include h1

/-- Taken if the bit is set. -/
theorem branchTail_completes : Completes (branchTail (operandRead a) .cell1 .cell0 bit) u
    (jumped u (u.flags.bit bit) a (u.after 2) (u.after 2) a) := by
  have htarget := (completes_operand a h1).append (b := [selmemSt .cell1]) (t := { atOperand u 1 a with selmem1 := a }) fun _ => rfl
  exact (htarget.pcinc_next rfl rfl (rfl : (1 : Int) + 1 = 2)).append
    (b := [rd .pc .ext, selmemSt .cell0, flagsBit bit, selmemRead, st .pc .ext])
    fun rest => runSeq_flagsBit_selmemRead (st .pc .ext :: rest) _ bit

/-- With the cells swapped (decision D15): taken if the bit is clear. -/
theorem branchTail_swapped_completes : Completes (branchTail (operandRead a) .cell0 .cell1 bit) u
    (jumped u (!u.flags.bit bit) a (u.after 2) a (u.after 2)) := by
  have htarget := (completes_operand a h1).append (b := [selmemSt .cell0]) (t := { atOperand u 1 a with selmem0 := a }) fun _ => rfl
  rw [jumped_not]
  exact (htarget.pcinc_next rfl rfl (rfl : (1 : Int) + 1 = 2)).append
    (b := [rd .pc .ext, selmemSt .cell1, flagsBit bit, selmemRead, st .pc .ext])
    fun rest => runSeq_flagsBit_selmemRead (st .pc .ext :: rest) _ bit

end

theorem branchTail_faults {u : State} (h1 : u.valid (u.after 1) = false) (a : Int) (target fallThrough : SelCell) (bit : FlagBit) :
    Faults (branchTail (operandRead a) target fallThrough bit) u (atOperand u 1 (u.after 1)) .fatalAddressing :=
  (faults_operand a h1).append _ |>.append _ |>.append _

/-! ### The comparison -/

/-- After the comparison, before the branch: PC at operand 2, the difference in slot 1 and on INT2. -/
def atComparison (s : State) (va d ib : Int) : State := { atOperand (compared s va d ib) 2 ib with int2 := d, s1 := d }

theorem atComparison_after (s : State) (va d ib k : Int) : (atComparison s va d ib).after k = s.after (2 + k) :=
  State.after_of_pc (s := s) (t := atComparison s va d ib) (k := 2) rfl rfl k

section
variable {s : State} {ia ib : Int} {ra rb : Reg} (h1 : s.valid (s.after 1) = true) (h2 : s.valid (s.after 2) = true)
  (ha : Selects s .int1 ia ra) (hb : Selects s .int2 ib rb)
include h1 h2 ha hb

/-- R194 to R197: the difference in slot 1 and on INT2, and the flags from it. -/
theorem compareSeq_completes :
    let va := State.getReg { s with pc := s.after 1 } ra
    let d := wrap s.cfg.w (va - State.getReg { s with pc := s.after 2 } rb)
    Completes (compareSeq (operandRead ia) (operandRead ib)) s (atComparison s va d ib) := by
  intro va d
  have hfirst : Completes _ s { atOperand s 1 ia with sel := ia, int1 := va, s0 := va } :=
    (completes_operand ia h1).append (completes_select_slot0 (State.getReg_congr rfl rfl rfl rfl rfl ra) ha)
  have hsecond := (hfirst.operand ib rfl rfl rfl h2).append
    (completes_select_slot1 (State.getReg_congr rfl rfl rfl rfl rfl rb : _ = State.getReg { s with pc := s.after 2 } rb) hb)
  exact hsecond.append (completes_aluResult computes_sub _)

/-- The target operand past memory. -/
theorem compareJump_faults (h3 : s.valid (s.after 3) = false) (a : Int) (target fallThrough : SelCell) (bit : FlagBit) :
    let va := State.getReg { s with pc := s.after 1 } ra
    let d := wrap s.cfg.w (va - State.getReg { s with pc := s.after 2 } rb)
    Faults (compareSeq (operandRead ia) (operandRead ib) ++ branchTail (operandRead a) target fallThrough bit) s
      (atOperand (compared s va d ib) 3 (s.after 3)) .fatalAddressing := by
  intro va d
  have hbranch := branchTail_faults (u := atComparison s va d ib) (by rw [atComparison_after]; exact h3) a target fallThrough bit
  rw [atOperand, atComparison_after] at hbranch
  exact (compareSeq_completes h1 h2 ha hb).append_faults hbranch

variable (h3 : s.valid (s.after 3) = true) (a : Int) (bit : FlagBit)
include h3

/-- The comparison, then the branch on its flags. -/
theorem compareJump_completes :
    let va := State.getReg { s with pc := s.after 1 } ra
    let d := wrap s.cfg.w (va - State.getReg { s with pc := s.after 2 } rb)
    Completes (compareSeq (operandRead ia) (operandRead ib) ++ branchTail (operandRead a) .cell1 .cell0 bit) s
      (jumped (compared s va d ib) ((flagsOf d).bit bit) a (s.after 4) (s.after 4) a) := by
  intro va d
  have hbranch := branchTail_completes (u := atComparison s va d ib) (by rw [atComparison_after]; exact h3) a bit
  rw [atComparison_after] at hbranch
  exact (compareSeq_completes h1 h2 ha hb).append hbranch

/-- The comparison, then the branch with the cells swapped. -/
theorem compareJump_swapped_completes :
    let va := State.getReg { s with pc := s.after 1 } ra
    let d := wrap s.cfg.w (va - State.getReg { s with pc := s.after 2 } rb)
    Completes (compareSeq (operandRead ia) (operandRead ib) ++ branchTail (operandRead a) .cell0 .cell1 bit) s
      (jumped (compared s va d ib) (!(flagsOf d).bit bit) a (s.after 4) a (s.after 4)) := by
  intro va d
  have hbranch := branchTail_swapped_completes (u := atComparison s va d ib) (by rw [atComparison_after]; exact h3) a bit
  rw [atComparison_after] at hbranch
  exact (compareSeq_completes h1 h2 ha hb).append hbranch

end

/-! ### The obligations, by the run of each sequence -/

/-- Settles O40. -/
theorem jmpLoadsPc : Obligations.JmpLoadsPc := by
  intro s a h1
  have hoperand := completes_operand a h1
  refine ⟨fun hmode ha => ?indirect, fun hmode => ?direct⟩
  case indirect =>
    have hload := hoperand.append (b := [memRead, st .pc .ext]) (.cons (memRead_apply_valid ha rfl) fun _ => rfl)
    simp only [exec, execJmp, hmode]
    exact hload.next
  case direct =>
    have hload := hoperand.append (b := [st .pc .ext]) fun _ => rfl
    simp only [exec, execJmp, hmode]
    exact hload.next

/-- Settles O41. -/
theorem flagJumpsSelect : Obligations.FlagJumpsSelect :=
  fun _ a h1 => ⟨(branchTail_completes h1 a .zero).next, (branchTail_completes h1 a .negative).next⟩

/-- Settles O42: `jneq` and `jgt` are taken where the bit they test is clear. -/
theorem compareJumpsSelect : Obligations.CompareJumpsSelect := by
  intro s ia ib a ra rb h1 h2 h3 ha hb va d base ft
  have hne : decide (d ≠ 0) = !(flagsOf d).bit .zero := decide_not
  have hge : decide (0 ≤ d) = !(flagsOf d).bit .negative := (decide_eq_decide.mpr not_lt.symm).trans decide_not
  rw [hne, hge]
  exact ⟨(compareJump_completes h1 h2 ha hb h3 a .zero).next, (compareJump_swapped_completes h1 h2 ha hb h3 a .zero).next,
    (compareJump_swapped_completes h1 h2 ha hb h3 a .negative).next, (compareJump_completes h1 h2 ha hb h3 a .negative).next⟩

/-! ### The multiply placeholders -/

theorem exec_imul {i : Instr} (hi : i ∈ [Instr.imulMemReg, .imulRegMem, .imulRegReg]) (s : State) :
    exec i s = .next (runSelected (imulSeq s.cfg.imulMode) s) := by
  simp only [List.mem_cons, List.not_mem_nil, or_false] at hi
  rcases hi with rfl | rfl | rfl <;> rfl

/-- Settles O43. -/
theorem imulFollowsMode : Obligations.ImulFollowsMode := by
  intro s i hi
  rw [exec_imul hi]
  exact ⟨fun hmode => by rw [hmode]; exact (completes_pcinc s).next, fun hmode => by rw [hmode]; rfl, fun hmode => by rw [hmode]; rfl⟩

end Sys2Proof.Machine
end

section
/-! Proofs about where a form faults (60_exceptions.md): at an operand's fetch, at the use of the first operand, at the use of the second. -/

namespace Sys2Proof.Machine

open Sys2Proof.Claims MicroOp

/-! ### The first operand -/

/-- Every instruction that has operands begins with PCINC and the fetch of its first (R150 to R197). -/
theorem exec_fetches_operand {i : Instr} (hi : i.operands ≠ []) (s : State) :
    ∃ v rest, exec i s = .next (runSeq (pcinc ++ opfetch (operandRead v) ++ rest) s) := by
  cases i
  case inc | imulMemReg | imulRegMem | imulRegReg => exact absurd rfl hi
  case jmp a => 
    simp only [exec, execJmp]
    cases s.cfg.jmpMode <;> exact ⟨a, _, rfl⟩
  all_goals exact ⟨_, _, rfl⟩

/-- Settles O44: whatever follows the first operand's fetch is not run. -/
theorem firstOperandPastMemoryFaults : Obligations.FirstOperandPastMemoryFaults := by
  intro s i hi h1
  obtain ⟨v, rest, hexec⟩ := exec_fetches_operand hi s
  exact hexec.trans ((faults_operand v h1).append rest).next

section
variable {s : State} (h1 : s.valid (s.after 1) = true)
include h1

/-- An operand used as an address at once. -/
theorem faults_read_operand {a : Int} (ha : s.valid a = false) (rest : List MicroOp) :
    Faults (pcinc ++ opfetch (operandRead a) ++ memRead :: rest) s (atOperand s 1 a) .fatalAddressing :=
  (completes_operand a h1).append_faults (.head rest (State.memRead_invalid _ ha))

/-- The cell that an operand names used as an address. -/
theorem faults_read_pointer {a : Int} (ha : s.valid a = true) (hc : s.valid (s.cell a) = false) (rest : List MicroOp) :
    Faults (pcinc ++ opfetch (operandRead a) ++ memRead :: memRead :: rest) s (atOperand s 1 (s.cell a)) .fatalAddressing :=
  (completes_operand a h1).append_faults (.cons (memRead_apply_valid ha rfl) (.head rest (State.memRead_invalid _ hc)))

/-- An operand used as a register index at once. -/
theorem faults_select_operand {b : Bus} {ia : Int} {f : Fault} (hf : regFault s.cfg b ia = some f) (rest : List MicroOp) :
    Faults (pcinc ++ opfetch (operandRead ia) ++ selSet :: rselRd b :: rest) s { atOperand s 1 ia with sel := ia } f :=
  (completes_operand ia h1).append_faults (.cons rfl (.head rest (rsel_apply_error (selectOn_of_regFault hf)).1))

end

/-- Settles O46. -/
theorem operandAddressFaults : Obligations.OperandAddressFaults := by
  intro s a r h1 ha
  refine ⟨fun i hi => ?_, fun hmode => ?_⟩
  · simp only [List.mem_cons, List.not_mem_nil, or_false] at hi
    rcases hi with rfl | rfl | rfl | rfl | rfl | rfl | rfl <;> exact (faults_read_operand h1 ha _).next
  · simp only [exec, execJmp, hmode]
    exact (faults_read_operand h1 ha _).next

/-- Settles O47. -/
theorem secondIndirectionFaults : Obligations.SecondIndirectionFaults := by
  intro s a h1 ha hc
  refine ⟨fun i hi => ?_, ?_⟩
  · simp only [List.mem_cons, List.not_mem_nil, or_false] at hi
    rcases hi with rfl | rfl | rfl <;> exact (faults_read_pointer h1 ha hc _).next
  · have hstore := (completes_operand a h1).append_faults (b := [memRead, memSta, rd (.rpg 0) .ext, memStd])
      (t := { atOperand s 1 (s.getReg (.rpg 0)) with memAL := s.cell a })
      (.cons (memRead_apply_valid ha rfl) (.cons rfl (.cons rfl (.head [] (State.memStd_invalid _ hc)))))
    exact (hstore.append pcinc).next

/-- Settles O48. -/
theorem firstRegisterOperandFaults : Obligations.FirstRegisterOperandFaults := by
  intro s ia x y f h1
  refine ⟨fun hf i hi => ?_, fun hf => (faults_select_operand h1 hf _).next, fun hf => (faults_select_operand h1 hf _).next⟩
  simp only [List.mem_cons, List.not_mem_nil, or_false] at hi
  rcases hi with rfl | rfl | rfl | rfl | rfl | rfl | rfl | rfl <;> exact (faults_select_operand h1 hf _).next

/-! ### Between the operands -/

/-- `u` has the first operand behind it, and nothing that outlasts the instruction has changed. -/
def Between (s u : State) : Prop :=
  u.cfg = s.cfg ∧ u.pc = s.after 1 ∧ u.mem = s.mem ∧ u.flags = s.flags ∧ ∀ x, x ≠ .pc → x ≠ .ir → u.getReg x = s.getReg x

/-- The uses of a first operand write IR, EXT, INT1, slot 0, SEL and what PCINC leaves. -/
theorem between (s : State) (ir ext int1 int2 s0 s1 sel : Int) : Between s
    { s with pc := s.after 1, ir := ir, ext := ext, int1 := int1, int2 := int2, s0 := s0, s1 := s1, sel := sel } := by
  refine ⟨rfl, rfl, rfl, rfl, fun x hpc hir => ?_⟩
  match x, hpc, hir with
  | .rpg _, _, _ | .stkTop, _, _ | .stkBot, _, _ => rfl

/-- The uses of a first operand, up to the PCINC for the second. -/
def FirstHalf (s : State) (seq : List MicroOp) : Prop := ∃ u, Completes seq s u ∧ Between s u

section
variable {s : State} (h1 : s.valid (s.after 1) = true)
include h1

theorem firstHalf_latch (i : Int) : FirstHalf s (pcinc ++ opfetch (operandRead i) ++ [selSet]) :=
  ⟨_, (completes_operand i h1).append fun _ => rfl, between s _ _ _ _ _ _ _⟩

theorem firstHalf_select {i : Int} {x : Reg} (hx : Selects s .int1 i x) :
    FirstHalf s (pcinc ++ opfetch (operandRead i) ++ [selSet, rselRd .int1, aluSt1 .slot0]) :=
  ⟨_, (completes_operand i h1).append (completes_select_slot0 rfl hx), between s _ _ _ _ _ _ _⟩

theorem firstHalf_select_ext {i : Int} {x : Reg} (hx : resolve s.cfg i = some (.reg x)) :
    FirstHalf s (pcinc ++ opfetch (operandRead i) ++ [selSet, rselRd .ext, st .ir .ext]) :=
  ⟨_, (completes_operand i h1).append (.cons rfl (.cons (rselRd_ext_apply hx rfl) fun _ => rfl)), between s _ _ _ _ _ _ _⟩

theorem firstHalf_load {a : Int} (ha : s.valid a = true) :
    FirstHalf s (pcinc ++ opfetch (operandRead a) ++ [memRead, st .ir .ext, rd .ir .int1, aluSt1 .slot0]) :=
  ⟨_, (completes_operand a h1).append (.cons (memRead_apply_valid ha rfl) fun _ => rfl), between s _ _ _ _ _ _ _⟩

theorem firstHalf_read {a : Int} (ha : s.valid a = true) : FirstHalf s (pcinc ++ opfetch (operandRead a) ++ [memRead, st .ir .ext]) :=
  ⟨_, (completes_operand a h1).append (.cons (memRead_apply_valid ha rfl) fun _ => rfl), between s _ _ _ _ _ _ _⟩

theorem firstHalf_immediate (v : Int) : FirstHalf s (pcinc ++ opfetch (operandRead v) ++ [st .ir .ext, rd .ir .int1, aluSt1 .slot0]) :=
  ⟨_, (completes_operand v h1).append fun _ => rfl, between s _ _ _ _ _ _ _⟩

theorem firstHalf_bridge (v : Int) : FirstHalf s (pcinc ++ opfetch (operandRead v) ++ [st .ir .ext]) :=
  ⟨_, (completes_operand v h1).append fun _ => rfl, between s _ _ _ _ _ _ _⟩

end

/-! ### The second operand -/

/-- After the fault at the second operand: IR and PC apart, the registers are those of `s`. -/
theorem Between.getReg_stopped {s u : State} (hu : Between s u) (f : Fault) (ext int2 s1 sel : Int) {x : Reg} (hpc : x ≠ .pc) (hir : x ≠ .ir) :
    (State.raise f { u with pc := s.after 2, ext := ext, int2 := int2, s1 := s1, sel := sel }).getReg x = s.getReg x := by
  obtain ⟨-, -, -, -, hregs⟩ := hu
  rw [← hregs x hpc hir]
  refine State.getReg_congr_of_ne_pc ?_ ?_ ?_ ?_ hpc <;> rfl

section
variable {s : State} {seq : List MicroOp} (h : FirstHalf s seq) (rest : List MicroOp)
include h

theorem FirstHalf.operand_faults (v : Int) (h2 : s.valid (s.after 2) = false) :
    ∃ t, (.next (runSeq (seq ++ pcinc ++ opfetch (operandRead v) ++ rest) s) : Host.Outcome State Fault Refusal) = .next t ∧
      t.run = .faulted .fatalAddressing ∧ t.pc = s.after 2 ∧ t.ext = s.after 2 ∧ t.mem = s.mem ∧ t.flags = s.flags ∧
      ∀ x, x ≠ .pc → x ≠ .ir → t.getReg x = s.getReg x := by
  obtain ⟨u, hseq, hu⟩ := h
  obtain ⟨hcfg, hpc, hmem, hflags, -⟩ := id hu
  have hfetch := (hseq.faults_operand v hcfg hpc rfl h2).append rest
  exact ⟨_, hfetch.next, rfl, rfl, rfl, hmem, hflags, fun _ => hu.getReg_stopped _ _ _ _ _⟩

variable (h2 : s.valid (s.after 2) = true) {ib : Int} {f : Fault}
include h2

theorem FirstHalf.select_faults (hf : regFault s.cfg .int2 ib = some f) :
    ∃ t, (.next (runSeq (seq ++ pcinc ++ opfetch (operandRead ib) ++ selSet :: rselRd .int2 :: rest) s) :
        Host.Outcome State Fault Refusal) = .next t ∧
      t.run = .faulted f ∧ t.sel = ib ∧ t.pc = s.after 2 ∧ t.mem = s.mem ∧ t.flags = s.flags ∧
      ∀ x, x ≠ .pc → x ≠ .ir → t.getReg x = s.getReg x := by
  obtain ⟨u, hseq, hu⟩ := h
  obtain ⟨hcfg, hpc, hmem, hflags, -⟩ := id hu
  rw [← hcfg] at hf
  have hselect := (hseq.operand ib hcfg hpc rfl h2).append_faults (b := selSet :: rselRd .int2 :: rest)
    (.cons rfl (.head rest (rsel_apply_error (selectOn_of_regFault hf)).1))
  exact ⟨_, hselect.next, rfl, rfl, rfl, hmem, hflags, fun _ => hu.getReg_stopped _ _ _ _ _⟩

theorem FirstHalf.deposit_faults (hf : regFault s.cfg .ext ib = some f) :
    ∃ t, (.next (runSeq (seq ++ pcinc ++ opfetch (operandRead ib) ++ selSet :: rd .ir .ext :: rselSt .ext :: rest) s) :
        Host.Outcome State Fault Refusal) = .next t ∧
      t.run = .faulted f ∧ t.sel = ib ∧ t.pc = s.after 2 ∧ t.mem = s.mem ∧ t.flags = s.flags ∧
      ∀ x, x ≠ .pc → x ≠ .ir → t.getReg x = s.getReg x := by
  obtain ⟨u, hseq, hu⟩ := h
  obtain ⟨hcfg, hpc, hmem, hflags, -⟩ := id hu
  rw [← hcfg] at hf
  have hselect := (hseq.operand ib hcfg hpc rfl h2).append_faults (b := selSet :: rd .ir .ext :: rselSt .ext :: rest)
    (.cons rfl (.cons rfl (.head rest (rsel_apply_error (selectOn_of_regFault hf)).2)))
  exact ⟨_, hselect.next, rfl, rfl, rfl, hmem, hflags, fun _ => hu.getReg_stopped _ _ _ _ _⟩

end

/-- Settles O49: the first operand is used, then the second selects nothing that the bus reaches. -/
theorem secondRegisterOperandFaults : Obligations.SecondRegisterOperandFaults := by
  intro s ia ib a y ra f h1 h2 ha hra
  refine ⟨fun hf hwired i hi => ?internal, fun hf i hi => ?memory, fun hf i hi => ?move⟩ <;>
    simp only [List.mem_cons, List.not_mem_nil, or_false] at hi
  case internal =>
    have hfirst := firstHalf_select h1 (selects_of_regFault_none hra hwired)
    rcases hi with rfl | rfl | rfl | rfl | rfl | rfl <;> exact hfirst.select_faults _ h2 hf
  case memory =>
    rcases hi with rfl | rfl | rfl | rfl
    · exact (firstHalf_load h1 ha).select_faults _ h2 hf
    · exact (firstHalf_load h1 ha).select_faults _ h2 hf
    · exact (firstHalf_immediate h1 y).select_faults _ h2 hf
    · exact (firstHalf_immediate h1 y).select_faults _ h2 hf
  case move =>
    rcases hi with rfl | rfl | rfl
    · exact (firstHalf_read h1 ha).deposit_faults _ h2 hf
    · exact (firstHalf_select_ext h1 hra).deposit_faults _ h2 hf
    · exact (firstHalf_bridge h1 y).deposit_faults _ h2 hf

/-- Settles O50. -/
theorem storingFormsFault : Obligations.StoringFormsFault := by
  intro s ir a x f h1 h2
  have hlatch := (completes_operand ir h1).append (b := [selSet]) (t := { atOperand s 1 ir with sel := ir }) fun _ => rfl
  refine ⟨fun ha hx i hi => ?address, fun hf => ?register, fun ha hx => ?data⟩
  case address =>
    have hfirst : Completes _ s { atOperand s 1 ir with sel := ir, int1 := State.getReg { s with pc := s.after 1 } x,
                                                        s0 := State.getReg { s with pc := s.after 1 } x } :=
      (completes_operand ir h1).append (completes_select_slot0 (State.getReg_congr rfl rfl rfl rfl rfl x) hx)
    have hread rest := (hfirst.operand a rfl rfl rfl h2).append_faults (b := memRead :: rest)
      (.head rest (State.memRead_invalid _ ha))
    simp only [List.mem_cons, List.not_mem_nil, or_false] at hi
    rcases hi with rfl | rfl <;> exact (hread _).next
  case register =>
    have hread := (hlatch.operand a rfl rfl rfl h2).append_faults (b := [memSta, rselRd .ext, memStd])
      (.cons rfl (.head [memStd] (rsel_apply_error (selectOn_of_regFault hf)).1))
    exact (hread.append pcinc).next
  case data =>
    have hstore := (hlatch.operand a rfl rfl rfl h2).append_faults (b := [memSta, rselRd .ext, memStd])
      (.cons rfl (.cons (rselRd_ext_apply hx (State.getReg_congr (t := { s with pc := s.after 2 }) rfl rfl rfl rfl rfl x))
        (.head [] (State.memStd_invalid _ ha))))
    exact (hstore.append pcinc).next

/-- R92: a legal address is an address of the memory. -/
theorem valid_of_addrLegal {s : State} {a : Int} (h : addrLegal s.cfg a = true) : s.valid a = true := by
  obtain ⟨-, hrange⟩ := of_decide_eq_true h
  exact decide_eq_true hrange

/-- Settles O45: a legal first operand is used; for a third operand, the comparison is run. -/
theorem laterOperandPastMemoryFaults : Obligations.LaterOperandPastMemoryFaults := by
  intro s i hwf h1
  refine ⟨fun hlen h2 => ?second, fun ia ib a ra rb hi ha hb h2 h3 => ?third⟩
  case second =>
    cases i <;> simp only [Instr.wellFormed, Bool.and_eq_true] at hwf
    case addRegReg | subRegReg | addRegMem | subRegMem =>
      obtain ⟨x, hx⟩ := exists_selects_of_legal hwf.1
      exact (firstHalf_select h1 (hx .int1)).operand_faults _ _ h2
    case jeq | jneq | jgt | jlw =>
      obtain ⟨x, hx⟩ := exists_selects_of_legal hwf.1.1
      exact (firstHalf_select h1 (hx .int1)).operand_faults _ _ h2
    case addMemReg | subMemReg => exact (firstHalf_load h1 (valid_of_addrLegal hwf.1)).operand_faults _ _ h2
    case addImmReg | subImmReg => exact (firstHalf_immediate h1 _).operand_faults _ _ h2
    case moveMemReg => exact (firstHalf_read h1 (valid_of_addrLegal hwf.1)).operand_faults _ _ h2
    case moveImmReg => exact (firstHalf_bridge h1 _).operand_faults _ _ h2
    case moveRegMem => exact (firstHalf_latch h1 _).operand_faults _ _ h2
    case moveRegReg =>
      obtain ⟨x, hx⟩ := exists_resolve_of_legal hwf.1
      exact (firstHalf_select_ext h1 hx).operand_faults _ _ h2
    all_goals simp [Instr.operands] at hlen
  case third =>
    have hlegal : regLegalOnInternal s.cfg ia = true ∧ regLegalOnInternal s.cfg ib = true := by
      simp only [List.mem_cons, List.not_mem_nil, or_false] at hi
      rcases hi with rfl | rfl | rfl | rfl <;> exact (Bool.and_eq_true _ _).mp ((Bool.and_eq_true _ _).mp hwf).1
    have hfaults := compareJump_faults h1 h2 (selects_of_legal hlegal.1 ha) (selects_of_legal hlegal.2 hb) h3 a
    have hregs {d : Int} x (hx : x ≠ .pc) :
        (atOperand (compared s (State.getReg { s with pc := s.after 1 } ra) d ib) 3 (s.after 3)).getReg x = s.getReg x := by
      refine State.getReg_congr_of_ne_pc ?_ ?_ ?_ ?_ hx <;> rfl
    simp only [List.mem_cons, List.not_mem_nil, or_false] at hi
    rcases hi with rfl | rfl | rfl | rfl <;>
      exact ⟨_, (hfaults _ _ _).next, rfl, rfl, rfl, rfl, rfl, fun x hx => by rw [State.getReg_raise]; exact hregs x hx⟩

end Sys2Proof.Machine
end

section
/-! What a sequence shows of its own run: the sequence of each instruction with its decoded operands, what is known of EXT, SEL, MEM.AL and
memory while it runs, and, read off from that, the registers and memory cells it can write. -/

namespace Sys2Proof.Machine

open Sys2Proof.Claims MicroOp

/-! ### The sequence of an instruction -/

/-- What DECODE selects, with the operands it delivers; none where it raises NotImplemented. -/
def seqOf (c : Config) : Instr → Option (List MicroOp)
  | .add a => some (accSeq aluAdd (operandRead a))
  | .sub a => some (accSeq aluSub (operandRead a))
  | .addRegReg ra rb => some (regRegSeq aluAdd (operandRead ra) (operandRead rb))
  | .subRegReg ra rb => some (regRegSeq aluSub (operandRead ra) (operandRead rb))
  | .addMemReg a r => some (memRegSeq aluAdd (operandRead a) (operandRead r))
  | .subMemReg a r => some (memRegSeq aluSub (operandRead a) (operandRead r))
  | .addRegMem r a => some (regMemSeq aluAdd (operandRead r) (operandRead a))
  | .subRegMem r a => some (regMemSeq aluSub (operandRead r) (operandRead a))
  | .addImmReg v r => some (immRegSeq aluAdd (operandRead v) (operandRead r))
  | .subImmReg v r => some (immRegSeq aluSub (operandRead v) (operandRead r))
  | .moveMemReg a r => some (moveMemRegSeq (operandRead a) (operandRead r))
  | .moveRegMem r a => some (moveRegMemSeq (operandRead r) (operandRead a))
  | .moveRegReg ra rb => some (moveRegRegSeq (operandRead ra) (operandRead rb))
  | .moveImmReg v r => some (moveImmRegSeq (operandRead v) (operandRead r))
  | .inc => some incSeq
  | .incReg r => some (incRegSeq (operandRead r))
  | .jmp a => some (jmpSeq c.jmpMode (operandRead a))
  | .jz a => some (flagJumpSeq .zero (operandRead a))
  | .jn a => some (flagJumpSeq .negative (operandRead a))
  | .jeq ra rb a => some (jeqSeq (operandRead ra) (operandRead rb) (operandRead a))
  | .jneq ra rb a => some (jneqSeq (operandRead ra) (operandRead rb) (operandRead a))
  | .jgt ra rb a => some (jgtSeq (operandRead ra) (operandRead rb) (operandRead a))
  | .jlw ra rb a => some (jlwSeq (operandRead ra) (operandRead rb) (operandRead a))
  | .read a => some (readSeq (operandRead a))
  | .store a => some (storeSeq (operandRead a))
  | .ldi v => some (ldiSeq (operandRead v))
  | .imulMemReg | .imulRegMem | .imulRegReg => imulSeq c.imulMode

theorem exec_eq_seqOf (i : Instr) (s : State) : exec i s = .next (runSelected (seqOf s.cfg i) s) := by cases i <;> rfl

theorem exec_eq_next {i : Instr} {s t : State} : exec i s = .next t ↔ runSelected (seqOf s.cfg i) s = t := by
  rw [exec_eq_seqOf, Host.Outcome.next.injEq]

/-! ### What every micro-operation of a sequence leaves -/

/-- A part of the state that a fault and every micro-operation of the sequence leave is left by the sequence. -/
theorem runSeq_keeps {α : Type} {φ : State → α} (hraise : ∀ u f, φ (u.raise f) = φ u) {seq : List MicroOp}
    (hseq : ∀ m ∈ seq, ∀ u v, m.apply u = .ok v → φ v = φ u) (s : State) : φ (runSeq seq s) = φ s := by
  induction seq generalizing s with
  | nil => rfl
  | cons m rest ih =>
    obtain ⟨hm, hrest⟩ := List.forall_mem_cons.mp hseq
    cases h : m.apply s with
    | error f => rw [runSeq_cons_error rest h, hraise]
    | ok t => rw [runSeq_cons_ok rest h, ih hrest, hm s t h]

/-- The micro-operation leaves the hidden element. -/
def MicroOp.keeps (e : Hidden) : MicroOp → Bool
  | .selmemStd => false
  | m => decide (e ∉ m.makes)

theorem MicroOp.hidden_of_keeps {e : Hidden} {m : MicroOp} (hk : m.keeps e = true) {u v : State} (h : m.apply u = .ok v) :
    v.hidden e = u.hidden e := by
  by_cases hm : m = selmemStd
  · subst hm; cases hk
  · rw [keeps.eq_2 _ _ hm] at hk
    exact apply_hidden h (of_decide_eq_true hk) hm

/-- The micro-operation leaves the flags. -/
def MicroOp.sparesFlags : MicroOp → Bool
  | .flagsUpd => false
  | _ => true

theorem MicroOp.ne_flagsUpd_of_sparesFlags {m : MicroOp} (h : m.sparesFlags = true) : m ≠ flagsUpd := by
  rintro rfl
  cases h

theorem runSeq_hidden {e : Hidden} {seq : List MicroOp} (h : seq.all (MicroOp.keeps e) = true) (s : State) :
    (runSeq seq s).hidden e = s.hidden e :=
  runSeq_keeps (φ := (State.hidden · e)) (fun u f => by cases e <;> rfl) (fun m hm _ _ => hidden_of_keeps (List.all_eq_true.mp h m hm)) s

theorem runSeq_flags {seq : List MicroOp} (h : seq.all MicroOp.sparesFlags = true) (s : State) : (runSeq seq s).flags = s.flags :=
  runSeq_keeps (φ := State.flags) (fun _ _ => rfl)
    (fun m hm _ _ hv => apply_flags hv (ne_flagsUpd_of_sparesFlags (List.all_eq_true.mp h m hm))) s

/-! ### What is known while a sequence runs -/

/-- The values of EXT, SEL and MEM.AL, where the sequence shows them, and whether main memory may have been written. -/
structure Known where
  ext : Option Int
  sel : Option Int
  memAL : Option Int
  stored : Bool

/-- Nothing is known yet. -/
def Known.start : Known := ⟨none, none, none, false⟩

/-- What is known after a micro-operation, where the cells of memory before the sequence are `cell`. -/
def Known.after (cell : Int → Int) (k : Known) : MicroOp → Known
  | .operandRead v => { k with ext := some v }
  | .memRead => { k with ext := if k.stored then none else k.ext.map cell }
  | .rd _ .ext | .rselRd .ext | .selmemRead | .flagsBit _ => { k with ext := none }
  | .selSet => { k with sel := k.ext }
  | .memSta => { k with memAL := k.ext }
  | .memStd => { k with stored := true }
  | _ => k

/-- What is known of `u`, in a run that began in `s`. -/
def Known.Holds (k : Known) (s u : State) : Prop :=
  u.cfg = s.cfg ∧ (∀ v, k.ext = some v → u.ext = v) ∧ (∀ v, k.sel = some v → u.sel = v) ∧ (∀ v, k.memAL = some v → u.memAL = v) ∧
  (k.stored = false → u.mem = s.mem)

theorem Known.start_holds (s : State) : Known.start.Holds s s := ⟨rfl, nofun, nofun, nofun, fun _ => rfl⟩

theorem Known.Holds.closed {k : Known} {s u : State} (h : k.Holds s u) : k.Holds s (closed u) := h

/-- A micro-operation that leaves EXT, SEL, MEM.AL and memory leaves what is known. -/
theorem Known.Holds.keep {k : Known} {s u v : State} (h : k.Holds s u) (hcfg : v.cfg = u.cfg) (hext : v.ext = u.ext)
    (hsel : v.sel = u.sel) (hal : v.memAL = u.memAL) (hmem : v.mem = u.mem) : k.Holds s v := by
  rw [Known.Holds, hcfg, hext, hsel, hal, hmem]; exact h

/-- A micro-operation that leaves SEL, MEM.AL and memory leaves what is known of them. -/
theorem Known.Holds.keep_but_ext {k : Known} {s u v : State} (h : k.Holds s u) (hcfg : v.cfg = u.cfg) (hsel : v.sel = u.sel)
    (hal : v.memAL = u.memAL) (hmem : v.mem = u.mem) : Known.Holds { k with ext := none } s v := by
  obtain ⟨hc, -, hs, ha, hm⟩ := h
  rw [Known.Holds, hcfg, hsel, hal, hmem]
  exact ⟨hc, nofun, hs, ha, hm⟩

theorem Known.Holds.apply {k : Known} {s u v : State} {m : MicroOp} (h : k.Holds s u) (hm : m.apply u = .ok v) :
    (k.after s.cell m).Holds s v := by
  have ⟨hcfg, hext, hsel, hal, hmem⟩ := h
  have hcfg' : v.cfg = u.cfg := (apply_run_cfg hm).2
  have hext' (he : .bus .ext ∉ m.makes) (hne : m ≠ selmemStd) : v.ext = u.ext := apply_hidden (e := .bus .ext) hm he hne
  have hsel' (he : .sel ∉ m.makes) (hne : m ≠ selmemStd) : v.sel = u.sel := apply_hidden (e := .sel) hm he hne
  have hal' (he : .memAL ∉ m.makes) (hne : m ≠ selmemStd) : v.memAL = u.memAL := apply_hidden (e := .memAL) hm he hne
  have hmem' (hne : m ≠ memStd) : v.mem = u.mem := apply_mem hne hm
  cases m
  case selSet => cases hm; exact ⟨hcfg, hext, hext, hal, hmem⟩
  case memSta => cases hm; exact ⟨hcfg, hext, hsel, hext, hmem⟩
  case operandRead x =>
    simp only [MicroOp.apply, State.operandRead] at hm
    split at hm <;> cases hm
    exact ⟨hcfg, fun _ hx => Option.some.inj hx, hsel, hal, hmem⟩
  case memRead =>
    simp only [MicroOp.apply, State.memRead] at hm
    split at hm <;> cases hm
    refine ⟨hcfg, fun x hx => ?_, hsel, hal, hmem⟩
    cases hst : k.stored with
    | true => simp [after, hst] at hx
    | false =>
      obtain ⟨a, ha, rfl⟩ : ∃ a, k.ext = some a ∧ s.cell a = x := by simpa [after, hst] using hx
      show u.cell u.ext = s.cell a
      rw [hext a ha, State.cell, hmem hst, State.cell]
  case memStd =>
    simp only [MicroOp.apply, State.memStd] at hm
    split at hm <;> cases hm
    exact ⟨hcfg, hext, hsel, hal, nofun⟩
  case selmemStd =>
    simp only [MicroOp.apply, State.selmemStd] at hm
    split at hm <;> cases hm
    rename_i c _
    cases c <;> exact h
  case rd x b | rselRd b =>
    cases b
    case ext => exact h.keep_but_ext hcfg' (hsel' (by simp [makes]) nofun) (hal' (by simp [makes]) nofun) (hmem' nofun)
    all_goals exact h.keep hcfg' (hext' (by simp [makes]) nofun) (hsel' (by simp [makes]) nofun) (hal' (by simp [makes]) nofun) (hmem' nofun)
  case selmemRead | flagsBit =>
    exact h.keep_but_ext hcfg' (hsel' (by simp [makes]) nofun) (hal' (by simp [makes]) nofun) (hmem' nofun)
  all_goals exact h.keep hcfg' (hext' (by simp [makes]) nofun) (hsel' (by simp [makes]) nofun) (hal' (by simp [makes]) nofun) (hmem' nofun)

/-! ### What a sequence does to registers and memory -/

/-- A PCINC, or what a single micro-operation does to a register or a memory cell; `none` where the index or the address is not known.
`unwired` is a transfer of a named register over a bus that does not reach it. -/
inductive Event
  | pcinc
  | store (x : Reg)
  | select (b : Bus) (i : Option Int)
  | selectStore (b : Bus) (i : Option Int)
  | writeCell (a : Option Int)
  | unwired

/-- The events of a single micro-operation, where `k` is known. -/
def MicroOp.events (k : Known) : MicroOp → List Event
  | .rd x b => if (FileEntry.reg x).wired b then [] else [.unwired]
  | .st x b => if (FileEntry.reg x).wired b then [.store x] else [.unwired]
  | .rselRd b => [.select b k.sel]
  | .rselSt b => [.selectStore b k.sel]
  | .memStd => [.writeCell k.memAL]
  | _ => []

/-- The events of a sequence that starts where `k` is known, and `cell` gives the cells of memory before it. -/
def eventsFrom (cell : Int → Int) (k : Known) : List MicroOp → List Event
  | .rd .pc .int2 :: .aluSt2 .slot1 :: .aluInc :: .aluRd2 .slot1 :: .st .pc .int2 :: rest => .pcinc :: eventsFrom cell k rest
  | m :: rest => m.events k ++ eventsFrom cell (k.after cell m) rest
  | [] => []

/-- The events of a sequence, run from `s`. -/
def State.events (s : State) (seq : List MicroOp) : List Event := eventsFrom s.cell .start seq

/-- How many of the events are a PCINC. -/
def pcincs : List Event → Nat
  | .pcinc :: rest => pcincs rest + 1
  | _ :: rest => pcincs rest
  | [] => 0

theorem pcincs_events_append (k : Known) (m : MicroOp) (es : List Event) : pcincs (m.events k ++ es) = pcincs es := by
  cases m
  case rd x b | st x b => simp only [events]; split <;> rfl
  all_goals rfl

/-- The induction over what a sequence does: `P n u` says something of the state `u` that `n` of the PCINCs lead to. It is kept by PCINC, by every
micro-operation whose events are allowed, and by the fault that ends the sequence. -/
theorem runSeq_events {P : Nat → State → Prop} {allowed : Event → Prop} {s : State}
    (hpcinc : ∀ n u, allowed .pcinc → u.cfg = s.cfg → P n u → P (n + 1) (Claims.closed u))
    (hstep : ∀ n k u v m, k.Holds s u → (∀ e ∈ MicroOp.events k m, allowed e) → m.apply u = .ok v → P n u → P n v)
    (hfault : ∀ n n' k u f m, k.Holds s u → (∀ e ∈ MicroOp.events k m, allowed e) → m.apply u = .error f → P n u → P n' (u.raise f))
    {seq : List MicroOp} (hseq : ∀ e ∈ s.events seq, allowed e) (h : P 0 s) : P (pcincs (s.events seq)) (runSeq seq s) := by
  have general : ∀ seq k n u, k.Holds s u → (∀ e ∈ eventsFrom s.cell k seq, allowed e) → P n u →
      P (n + pcincs (eventsFrom s.cell k seq)) (runSeq seq u) := by
    intro seq k
    induction k, seq using eventsFrom.induct s.cell with
    | case1 k rest ih =>
      intro n u hk hall hP
      rw [eventsFrom] at hall ⊢
      obtain ⟨hone, hrest⟩ := List.forall_mem_cons.mp hall
      have hclosed := ih (n + 1) _ hk.closed hrest (hpcinc n u hone hk.1 hP)
      rw [Nat.add_assoc, Nat.add_comm 1] at hclosed
      exact runSeq_pcinc_append rest u ▸ hclosed
    | case2 k m rest hne ih =>
      intro n u hk hall hP
      rw [eventsFrom.eq_2 _ _ _ _ hne] at hall ⊢
      rw [pcincs_events_append]
      obtain ⟨hone, hrest⟩ := List.forall_mem_append.mp hall
      cases hm : m.apply u with
      | error f => rw [runSeq_cons_error rest hm]; exact hfault n _ k u f m hk hone hm hP
      | ok v => rw [runSeq_cons_ok rest hm]; exact ih n v (hk.apply hm) hrest (hstep n k u v m hk hone hm hP)
    | case3 k => exact fun n u _ _ hP => hP
  exact Nat.zero_add (pcincs _) ▸ general seq .start 0 s (Known.start_holds s) hseq h

/-! ### The events of each instruction -/

/-- The events of an instruction, as its sequence shows them. -/
def State.eventsOf (s : State) : Instr → List Event
  | .add _ | .sub _ => [.pcinc, .store .ir, .store (.rpg 0), .pcinc]
  | .addRegReg x y | .subRegReg x y => [.pcinc, .select .int1 (some x), .pcinc, .select .int2 (some y), .selectStore .int2 (some y), .pcinc]
  | .addMemReg _ y | .subMemReg _ y | .addImmReg _ y | .subImmReg _ y =>
    [.pcinc, .store .ir, .pcinc, .select .int2 (some y), .selectStore .int2 (some y), .pcinc]
  | .addRegMem r a | .subRegMem r a =>
    [.pcinc, .select .int1 (some r), .pcinc, .store .ir, .store .ir, .writeCell (some a), .pcinc]
  | .moveMemReg _ y | .moveImmReg _ y => [.pcinc, .store .ir, .pcinc, .selectStore .ext (some y), .pcinc]
  | .moveRegMem r a => [.pcinc, .pcinc, .select .ext (some r), .writeCell (some a), .pcinc]
  | .moveRegReg x y => [.pcinc, .select .ext (some x), .store .ir, .pcinc, .selectStore .ext (some y), .pcinc]
  | .inc => [.store (.rpg 0), .pcinc]
  | .incReg x => [.pcinc, .select .int2 (some x), .selectStore .int2 (some x), .pcinc]
  | .jmp _ => [.pcinc, .store .pc]
  | .jz _ | .jn _ => [.pcinc, .pcinc, .store .pc]
  | .jeq x y _ | .jneq x y _ | .jgt x y _ | .jlw x y _ =>
    [.pcinc, .select .int1 (some x), .pcinc, .select .int2 (some y), .pcinc, .pcinc, .store .pc]
  | .read _ | .ldi _ => [.pcinc, .store (.rpg 0), .pcinc]
  | .store a => [.pcinc, .writeCell (some (s.cell a)), .pcinc]
  | .imulMemReg | .imulRegMem | .imulRegReg => if s.cfg.imulMode = .nopAdvance then [.pcinc] else []

theorem events_of_seqOf {s : State} {i : Instr} {seq : List MicroOp} (h : seqOf s.cfg i = some seq) : s.events seq = s.eventsOf i := by
  cases i
  case jmp a =>
    cases h
    show s.events (jmpSeq s.cfg.jmpMode (operandRead a)) = _
    cases s.cfg.jmpMode <;> rfl
  case imulMemReg | imulRegMem | imulRegReg =>
    rw [seqOf] at h
    rw [State.eventsOf]
    cases hmode : s.cfg.imulMode <;> rw [hmode] at h <;> cases h <;> rfl
  all_goals cases h; rfl

end Sys2Proof.Machine
end

section
/-! What instructions leave unchanged, completed or faulted (O53 to O57), read off from the events of their sequences. -/

namespace Sys2Proof.Machine

open Sys2Proof.Claims MicroOp

/-! ### From events to the frame -/

/-- The event writes registers of `writes` and no others; PCINC is not looked at. -/
def Event.RegsWithin (c : Config) (writes : List Reg) : Event → Prop
  | .store x => x ∈ writes
  | .selectStore _ i => ∃ v, i = some v ∧ named c v ⊆ writes
  | .pcinc | .select _ _ | .writeCell _ | .unwired => True

/-- The event writes no memory cell but `stored`. -/
def Event.CellWithin (stored : Option Nat) : Event → Prop
  | .writeCell a => ∃ v, a = some v ∧ stored = some v.toNat
  | _ => True

section
variable {k : Known} {s u v : State} {m : MicroOp} {writes : List Reg} {stored : Option Nat}

theorem MicroOp.apply_getReg_of_within (hk : k.Holds s u) (hw : ∀ e ∈ m.events k, e.RegsWithin s.cfg writes) (hm : m.apply u = .ok v)
    {x : Reg} (hx : x ∉ writes) : v.getReg x = u.getReg x := by
  refine apply_getReg hm fun hin => hx ?_
  obtain ⟨hcfg, -, hsel, -⟩ := hk
  cases m
  case st y b =>
    by_cases hb : (FileEntry.reg y).wired b = true
    · rw [events, if_pos hb] at hw
      exact List.mem_singleton.mp hin ▸ hw _ (List.mem_singleton_self _)
    · rw [apply, State.storeFrom_unwired _ (Bool.eq_false_iff.mpr hb)] at hm
      cases hm
  case rselSt b =>
    obtain ⟨i, hi, hnamed⟩ := hw _ (List.mem_singleton_self _)
    rw [writtenRegs, hcfg, hsel i hi] at hin
    exact hnamed hin
  all_goals cases hin

theorem MicroOp.apply_read_of_within (hk : k.Holds s u) (hw : ∀ e ∈ m.events k, e.CellWithin stored) (hm : m.apply u = .ok v) {a : Nat}
    (ha : some a ≠ stored) : Memory.read v.mem a = Memory.read u.mem a := by
  by_cases hstd : m = .memStd
  · subst hstd
    obtain ⟨b, hb, hstored⟩ := hw _ (List.mem_singleton_self _)
    simp only [MicroOp.apply, State.memStd] at hm
    split at hm <;> cases hm
    obtain ⟨-, -, -, hal, -⟩ := hk
    rw [hal b hb]
    exact Memory.read_write_ne _ _ fun hab => ha (hab ▸ hstored.symm)
  · rw [apply_mem hstd hm]

end

section
variable {s t : State} {i : Instr} (h : exec i s = .next t)
include h

/-- An instruction leaves what every micro-operation of its sequence leaves. -/
theorem exec_hidden {e : Hidden} (hk : (seqOf s.cfg i).all (List.all · (MicroOp.keeps e)) = true) : t.hidden e = s.hidden e := by
  obtain rfl := exec_eq_next.mp h
  cases hseq : seqOf s.cfg i with
  | none => cases e <;> rfl
  | some seq => rw [hseq] at hk; exact runSeq_hidden hk s

theorem exec_flags (hk : (seqOf s.cfg i).all (List.all · MicroOp.sparesFlags) = true) : t.flags = s.flags := by
  obtain rfl := exec_eq_next.mp h
  cases hseq : seqOf s.cfg i with
  | none => rfl
  | some seq => rw [hseq] at hk; exact runSeq_flags hk s

/-- No instruction uses the generic store of the selector memory. -/
theorem exec_selAL : t.selAL = s.selAL := by
  refine exec_hidden (e := .selAL) h ?_
  cases i
  case jmp a => simp only [seqOf]; cases s.cfg.jmpMode <;> rfl
  case imulMemReg | imulRegMem | imulRegReg => simp only [seqOf]; cases s.cfg.imulMode <;> rfl
  all_goals rfl

/-- Events within a frame keep to it, also where a fault ends the instruction. -/
theorem exec_frame {writes : List Reg} {stored : Option Nat} (hpc : .pc ∈ writes := by simp)
    (hregs : ∀ e ∈ s.eventsOf i, e.RegsWithin s.cfg writes := by simp [State.eventsOf, Event.RegsWithin])
    (hcell : ∀ e ∈ s.eventsOf i, e.CellWithin stored := by simp [State.eventsOf, Event.CellWithin]) : Frame s t writes stored := by
  have hcfg : t.cfg = s.cfg := by rw [← exec_eq_next.mp h, runSelected_cfg]
  have hkept : (∀ x, x ∉ writes → t.getReg x = s.getReg x) ∧ ∀ a, some a ≠ stored → Memory.read t.mem a = Memory.read s.mem a := by
    obtain rfl := exec_eq_next.mp h
    cases hseq : seqOf s.cfg i with
    | none => exact ⟨fun x _ => s.getReg_raise _ x, fun _ _ => rfl⟩
    | some seq =>
      rw [← events_of_seqOf hseq] at hregs hcell
      refine runSeq_events (P := fun _ u => (∀ x, x ∉ writes → u.getReg x = s.getReg x) ∧
        ∀ a, some a ≠ stored → Memory.read u.mem a = Memory.read s.mem a)
        (allowed := fun e => e.RegsWithin s.cfg writes ∧ e.CellWithin stored) ?_ ?_ ?_ (fun e he => ⟨hregs e he, hcell e he⟩) ⟨fun _ _ => rfl, fun _ _ => rfl⟩
      · exact fun _ u _ _ ⟨hr, hm⟩ =>
          ⟨fun x hx => hr x hx ▸ State.getReg_congr_of_ne_pc (s := closed u) (t := u) rfl rfl rfl rfl (ne_of_mem_of_not_mem hpc hx).symm, hm⟩
      · exact fun _ k u v m hk hone hv ⟨hr, hm⟩ =>
          ⟨fun x hx => (apply_getReg_of_within hk (fun e he => (hone e he).1) hv hx).trans (hr x hx),
            fun a ha => (apply_read_of_within hk (fun e he => (hone e he).2) hv ha).trans (hm a ha)⟩
      · exact fun _ _ _ u f _ _ _ _ ⟨hr, hm⟩ => ⟨fun x hx => (u.getReg_raise f x).trans (hr x hx), hm⟩
  exact ⟨hkept.1, hkept.2, exec_selAL h, hcfg⟩

end

section
variable {s t : State} {i : Instr} (h : exec i s = .next t)
include h

/-- Where a sequence loads neither the selector cells nor the store's latch, they are kept. -/
theorem exec_latchesKept (h0 : (seqOf s.cfg i).all (List.all · (MicroOp.keeps (.selCell .cell0))) = true)
    (h1 : (seqOf s.cfg i).all (List.all · (MicroOp.keeps (.selCell .cell1))) = true)
    (hal : (seqOf s.cfg i).all (List.all · (MicroOp.keeps .memAL)) = true) : LatchesKept s t :=
  ⟨exec_hidden (e := .selCell .cell0) h h0, exec_hidden (e := .selCell .cell1) h h1, exec_hidden (e := .memAL) h hal⟩

theorem exec_sel (hk : (seqOf s.cfg i).all (List.all · (MicroOp.keeps .sel)) = true) : t.sel = s.sel := exec_hidden (e := .sel) h hk

theorem exec_ext (hk : (seqOf s.cfg i).all (List.all · (MicroOp.keeps (.bus .ext))) = true) : t.ext = s.ext :=
  exec_hidden (e := .bus .ext) h hk

theorem exec_int1 (hk : (seqOf s.cfg i).all (List.all · (MicroOp.keeps (.bus .int1))) = true) : t.int1 = s.int1 :=
  exec_hidden (e := .bus .int1) h hk

theorem exec_s0 (hk : (seqOf s.cfg i).all (List.all · (MicroOp.keeps (.slot .slot0))) = true) : t.s0 = s.s0 :=
  exec_hidden (e := .slot .slot0) h hk

end

/-- Settles O53, from the events and the loads of the sequences. -/
theorem registerArithmeticFrame : Obligations.RegisterArithmeticFrame := by
  refine fun s t x y => ⟨fun i hi h => ?_, fun i hi h => ?_, fun i hi h => ?_, fun h => ?_, fun h => ?_⟩
  · simp only [List.mem_cons, List.not_mem_nil, or_false] at hi
    rcases hi with rfl | rfl <;>
      exact ⟨exec_frame h, exec_latchesKept h rfl rfl rfl, exec_sel h rfl⟩
  · simp only [List.mem_cons, List.not_mem_nil, or_false] at hi
    rcases hi with rfl | rfl <;> exact ⟨exec_frame h, exec_latchesKept h rfl rfl rfl⟩
  · simp only [List.mem_cons, List.not_mem_nil, or_false] at hi
    rcases hi with rfl | rfl | rfl | rfl <;>
      exact ⟨exec_frame h, exec_latchesKept h rfl rfl rfl⟩
  · exact ⟨exec_frame h, exec_latchesKept h rfl rfl rfl,
      exec_sel h rfl, exec_int1 h rfl, exec_s0 h rfl, exec_ext h rfl⟩
  · exact ⟨exec_frame h, exec_latchesKept h rfl rfl rfl, exec_int1 h rfl, exec_s0 h rfl⟩

/-- Settles O54, from the events and the loads of the sequences. -/
theorem registerMoveFrame : Obligations.RegisterMoveFrame := by
  refine fun s t x y => ⟨fun i hi h => ?_, fun i hi h => ?_⟩
  · simp only [List.mem_cons, List.not_mem_nil, or_false] at hi
    rcases hi with rfl | rfl | rfl <;> exact ⟨exec_frame h, exec_latchesKept h rfl rfl rfl,
      exec_flags h rfl, exec_int1 h rfl, exec_s0 h rfl⟩
  · simp only [List.mem_cons, List.not_mem_nil, or_false] at hi
    rcases hi with rfl | rfl <;> exact ⟨exec_frame h, exec_latchesKept h rfl rfl rfl,
      exec_flags h rfl, exec_int1 h rfl, exec_s0 h rfl, exec_sel h rfl⟩

/-- Settles O55, from the events and the loads of the sequences; the cell that `store` writes is the one its first read shows. -/
theorem storeFrame : Obligations.StoreFrame := by
  refine fun s t r a => ⟨fun i hi h => ?_, fun h => ?_, fun h => ?_, fun i hi h => ?_⟩
  · simp only [List.mem_cons, List.not_mem_nil, or_false] at hi
    rcases hi with rfl | rfl <;> exact exec_frame h
  · exact ⟨exec_frame h, exec_flags h rfl, exec_int1 h rfl, exec_s0 h rfl⟩
  · exact ⟨exec_frame h, exec_flags h rfl, exec_int1 h rfl, exec_s0 h rfl, exec_sel h rfl⟩
  · simp only [List.mem_cons, List.not_mem_nil, or_false] at hi
    rcases hi with rfl | rfl | rfl | rfl <;>
      exact ⟨exec_hidden (e := .selCell .cell0) h rfl, exec_hidden (e := .selCell .cell1) h rfl⟩

/-- What `jmp` leaves does not depend on its mode. -/
theorem seqOf_jmp_keeps {c : Config} {a : Int} {p : MicroOp → Bool} (hd : (jmpSeq .direct (operandRead a)).all p = true)
    (hi : (jmpSeq .indirect (operandRead a)).all p = true) : (seqOf c (.jmp a)).all (List.all · p) = true := by
  show (jmpSeq c.jmpMode (operandRead a)).all p = true
  cases c.jmpMode
  exacts [hi, hd]

/-- Settles O56, from the events and the loads of the sequences. -/
theorem jumpFrame : Obligations.JumpFrame := by
  refine fun s t x y a => ⟨fun h => ?_, fun i hi h => ?_, fun i hi h => ?_⟩
  · have keeps {p : MicroOp → Bool} hd hi : (seqOf s.cfg (.jmp a)).all (List.all · p) = true := seqOf_jmp_keeps hd hi
    exact ⟨exec_frame h, exec_latchesKept h (keeps rfl rfl) (keeps rfl rfl) (keeps rfl rfl), exec_flags h (keeps rfl rfl),
      exec_int1 h (keeps rfl rfl), exec_s0 h (keeps rfl rfl), exec_sel h (keeps rfl rfl)⟩
  · simp only [List.mem_cons, List.not_mem_nil, or_false] at hi
    rcases hi with rfl | rfl <;> exact ⟨exec_frame h, exec_hidden (e := .memAL) h rfl,
      exec_flags h rfl, exec_int1 h rfl, exec_s0 h rfl, exec_sel h rfl⟩
  · simp only [List.mem_cons, List.not_mem_nil, or_false] at hi
    rcases hi with rfl | rfl | rfl | rfl <;>
      exact ⟨exec_frame h, exec_hidden (e := .memAL) h rfl⟩

/-- A placeholder's sequence, where it has one, is PCINC or nothing. -/
theorem seqOf_imul_keeps {c : Config} {i : Instr} (hi : i ∈ [Instr.imulMemReg, .imulRegMem, .imulRegReg]) {p : MicroOp → Bool}
    (hp : pcinc.all p = true) : (seqOf c i).all (List.all · p) = true := by
  have himul : seqOf c i = imulSeq c.imulMode := by
    simp only [List.mem_cons, List.not_mem_nil, or_false] at hi
    rcases hi with rfl | rfl | rfl <;> rfl
  rw [himul]
  cases c.imulMode
  exacts [rfl, hp, rfl]

/-- Settles O57, from the events and the loads of PCINC. -/
theorem imulFrame : Obligations.ImulFrame := by
  intro s t i hi h
  have keeps {p : MicroOp → Bool} (hp : pcinc.all p = true) : (seqOf s.cfg i).all (List.all · p) = true := seqOf_imul_keeps hi hp
  have hevents : ∀ e ∈ s.eventsOf i, e = .pcinc := by
    simp only [List.mem_cons, List.not_mem_nil, or_false] at hi
    rcases hi with rfl | rfl | rfl <;> simp [State.eventsOf]
  exact ⟨exec_frame h (by simp) (fun e he => hevents e he ▸ trivial) (fun e he => hevents e he ▸ trivial),
    exec_latchesKept h (keeps rfl) (keeps rfl) (keeps rfl), exec_flags h (keeps rfl), exec_int1 h (keeps rfl), exec_s0 h (keeps rfl),
    exec_sel h (keeps rfl), exec_ext h (keeps rfl)⟩

end Sys2Proof.Machine
end

section
/-! Where PC ends (O58), which faults an instruction with legal operands ends in (O52), and what a faulted instruction stores (O51). -/

namespace Sys2Proof.Machine

open Sys2Proof.Claims MicroOp

/-! ### The advance of PC (R26) -/

/-- PC after `n` PCINCs. -/
def State.advanced (s : State) : Nat → Int
  | 0 => s.pc
  | n + 1 => s.after (n + 1 : Nat)

theorem State.advanced_succ {s u : State} {n : Nat} (hcfg : u.cfg = s.cfg) (hpc : u.pc = s.advanced n) : u.after 1 = s.advanced (n + 1) := by
  cases n with
  | zero => rw [advanced, State.after, State.after, hcfg, hpc]; rfl
  | succ n => exact (State.after_of_pc hcfg hpc 1).trans (by rw [advanced]; congr 1)

/-- A sequence that completes and writes PC by PCINC only leaves PC after its PCINCs. -/
theorem runSeq_pc {s : State} {seq : List MicroOp} {writes : List Reg} (hpc : .pc ∉ writes)
    (hregs : ∀ e ∈ s.events seq, e.RegsWithin s.cfg writes) (hrun : (runSeq seq s).run = .running) :
    (runSeq seq s).pc = s.advanced (pcincs (s.events seq)) := by
  refine runSeq_events (P := fun n u => u.run = .running → u.pc = s.advanced n) ?_ ?_ ?_ hregs (fun _ => rfl) hrun
  · exact fun n u _ hcfg hP hrun => State.advanced_succ hcfg (hP hrun)
  · exact fun n k u v m hk hone hm hP hrun =>
      (apply_getReg_of_within hk hone hm hpc : v.getReg .pc = u.getReg .pc).trans (hP ((apply_run_cfg hm).1.symm.trans hrun))
  · exact fun _ _ _ _ _ _ _ _ _ _ hrun => by cases hrun

/-- Which registers the events of an instruction that does not jump write, apart from PCINC. -/
theorem eventsOf_regsWithin_destination {i : Instr} (hjump : isJump i = false) (himul : isImul i = false) (s : State) :
    ∀ e ∈ s.eventsOf i, e.RegsWithin s.cfg (.ir :: .rpg 0 :: destination s.cfg i) := by
  cases i
  case jmp | jz | jn | jeq | jneq | jgt | jlw => cases hjump
  case imulMemReg | imulRegMem | imulRegReg => cases himul
  all_goals simp [State.eventsOf, Event.RegsWithin, destination]

theorem pcincs_eventsOf {i : Instr} (hjump : isJump i = false) (himul : isImul i = false) (s : State) :
    pcincs (s.eventsOf i) = i.operands.length + 1 := by
  cases i
  case jmp | jz | jn | jeq | jneq | jgt | jlw => cases hjump
  case imulMemReg | imulRegMem | imulRegReg => cases himul
  all_goals rfl

/-- Settles O58: an instruction has one PCINC more than operands, and only a destination PC is written otherwise. -/
theorem advanceLaw : Obligations.AdvanceLaw := by
  intro s t i hrun hjump himul hdest h htrun
  obtain rfl := exec_eq_next.mp h
  cases hseq : seqOf s.cfg i with
  | none => rw [hseq] at htrun; cases htrun
  | some seq =>
    rw [hseq] at htrun
    have hregs := eventsOf_regsWithin_destination hjump himul s
    have hcount := pcincs_eventsOf hjump himul s
    rw [← events_of_seqOf hseq] at hregs hcount
    have hpc := runSeq_pc (by simp [hdest]) hregs htrun
    rw [hcount] at hpc
    exact hpc.trans (by rw [State.advanced, Nat.cast_add_one, Int.add_comm])

/-! ### Legal operands (R92) -/

/-- The index of a selected transfer is known, and selects a register wired to the bus. -/
def Event.Selects (c : Config) : Event → Prop
  | .select b i | .selectStore b i => ∃ v x, i = some v ∧ selectOn c b v = .ok x
  | .unwired => False
  | .pcinc | .store _ | .writeCell _ => True

section
variable {c : Config} {v : Int}

theorem exists_selectOn_of_internal (h : regLegalOnInternal c v = true) (b : Bus) : ∃ x, selectOn c b v = .ok x := by
  obtain ⟨x, hx⟩ := exists_selects_of_legal (s := .resetOf c) h
  exact ⟨x, selectOn_of_wired (hx b).1 (hx b).2⟩

theorem exists_selectOn_of_ext (h : regLegalOnExt c v = true) : ∃ x, selectOn c .ext v = .ok x := by
  obtain ⟨x, hx⟩ := exists_resolve_of_legal h
  exact ⟨x, selectOn_of_wired hx (FileEntry.wired_ext x)⟩

end

/-- Legal register operands select registers wired to the buses their instruction uses. -/
theorem eventsOf_selects {s : State} {i : Instr} (h : i.wellFormed s.cfg = true) : ∀ e ∈ s.eventsOf i, e.Selects s.cfg := by
  cases i
  all_goals
    simp only [Instr.wellFormed, Bool.and_eq_true] at h
    simp_all [State.eventsOf, Event.Selects, exists_selectOn_of_ext, exists_selectOn_of_internal]

/-- The state is in neither of the two register faults (R223, R224). -/
def State.NotMisselected (s : State) : Prop := s.run ≠ .faulted .registerIndexFault ∧ s.run ≠ .faulted .configurationFault

/-- Where every selection is good, an access out of range is the only fault left. -/
theorem MicroOp.error_of_selects {k : Known} {s u : State} {m : MicroOp} {f : Fault} (hk : k.Holds s u)
    (hone : ∀ e ∈ m.events k, e.Selects s.cfg) (hm : m.apply u = .error f) : f = .fatalAddressing := by
  obtain ⟨hcfg, -, hsel, -⟩ := hk
  cases m
  case rd x b =>
    by_cases hb : (FileEntry.reg x).wired b = true
    · rw [apply, State.readOnto_wired _ hb] at hm; cases hm
    · rw [events, if_neg hb] at hone; exact (hone _ (List.mem_singleton_self _)).elim
  case st x b =>
    by_cases hb : (FileEntry.reg x).wired b = true
    · rw [apply, State.storeFrom_wired _ hb] at hm; cases hm
    · rw [events, if_neg hb] at hone; exact (hone _ (List.mem_singleton_self _)).elim
  case rselRd b =>
    obtain ⟨v, x, hv, hx⟩ := hone _ (List.mem_singleton_self _)
    rw [apply, State.rselRead_eq, hcfg, hsel v hv, hx] at hm; cases hm
  case rselSt b =>
    obtain ⟨v, x, hv, hx⟩ := hone _ (List.mem_singleton_self _)
    rw [apply, State.rselStore_eq, hcfg, hsel v hv, hx] at hm; cases hm
  case memRead => simp only [apply, State.memRead] at hm; split at hm <;> cases hm; rfl
  case operandRead => simp only [apply, State.operandRead] at hm; split at hm <;> cases hm; rfl
  case memStd => simp only [apply, State.memStd] at hm; split at hm <;> cases hm; rfl
  case selmemRead => simp only [apply, State.selmemRead] at hm; split at hm <;> cases hm; rfl
  case selmemStd => simp only [apply, State.selmemStd] at hm; split at hm <;> cases hm; rfl
  all_goals cases hm

/-- Settles O52: with legal operands every selection of the sequence is good. -/
theorem legalOperandsNeverMisselect : Obligations.LegalOperandsNeverMisselect := by
  intro s t i hrun hwf h
  obtain rfl := exec_eq_next.mp h
  cases hseq : seqOf s.cfg i with
  | none => exact ⟨nofun, nofun⟩
  | some seq =>
    have hselects := eventsOf_selects hwf
    rw [← events_of_seqOf hseq] at hselects
    refine runSeq_events (P := fun _ u => u.NotMisselected) (fun _ _ _ _ hP => hP) ?_ ?_ hselects ?_
    · intro _ k u v m _ _ hm hP
      rw [State.NotMisselected, (apply_run_cfg hm).1]; exact hP
    · intro _ _ k u f m hk hone hm _
      rw [error_of_selects hk hone hm]; exact ⟨nofun, nofun⟩
    · rw [State.NotMisselected, hrun]; exact ⟨nofun, nofun⟩

/-! ### Memory where an instruction faults -/

/-- Nothing but PCINC follows the data phase of a store. -/
def storesLast : List MicroOp → Bool
  | [.memStd, .rd .pc .int2, .aluSt2 .slot1, .aluInc, .aluRd2 .slot1, .st .pc .int2] => true
  | .memStd :: _ => false
  | _ :: rest => storesLast rest
  | [] => true

theorem runSeq_mem_of_faulted {seq : List MicroOp} {s : State} {f : Fault} (hseq : storesLast seq = true) (hrun : s.run = .running)
    (hf : (runSeq seq s).run = .faulted f) : (runSeq seq s).mem = s.mem := by
  induction seq using storesLast.induct generalizing s with
  | case1 =>
    cases hstd : memStd.apply s with
    | error g => rw [runSeq_cons_error _ hstd, State.raise_mem]
    | ok u =>
      have hend : u.run = .faulted f := by rw [runSeq_cons_ok _ hstd] at hf; exact hf
      rw [(apply_run_cfg hstd).1, hrun] at hend
      cases hend
  | case2 rest hne => simp [storesLast] at hseq
  | case3 m rest hne hm ih =>
    rw [storesLast.eq_3 _ _ hne hm] at hseq
    cases happ : m.apply s with
    | error g => rw [runSeq_cons_error _ happ, State.raise_mem]
    | ok u =>
      rw [runSeq_cons_ok _ happ] at hf ⊢
      rw [ih hseq ((apply_run_cfg happ).1.trans hrun) hf, apply_mem hm happ]
  | case4 => rfl

theorem storesLast_of_seqOf {c : Config} {i : Instr} {seq : List MicroOp} (h : seqOf c i = some seq) : storesLast seq = true := by
  cases i
  case jmp a =>
    cases h
    show storesLast (jmpSeq c.jmpMode (operandRead a)) = true
    cases c.jmpMode <;> rfl
  case imulMemReg | imulRegMem | imulRegReg =>
    rw [seqOf] at h
    cases hmode : c.imulMode <;> rw [hmode] at h <;> cases h <;> rfl
  all_goals cases h; rfl

/-- Settles O51: the data phase of a store is the last micro-operation that can fault. -/
theorem faultedInstructionStoresNothing : Obligations.FaultedInstructionStoresNothing := by
  intro s t i f hrun h hf
  obtain rfl := exec_eq_next.mp h
  cases hseq : seqOf s.cfg i with
  | none => rfl
  | some seq =>
    rw [hseq] at hf
    exact runSeq_mem_of_faulted (storesLast_of_seqOf hseq) hrun hf

end Sys2Proof.Machine
end

section
/-! Which instructions write the flags and which read them (R32, O60). -/

namespace Sys2Proof.Machine

open Sys2Proof.Claims MicroOp

/-! ### Other flags -/

/-- The state with other flags. -/
def State.withFlags (f : Flags) (s : State) : State := { s with flags := f }

/-- Only the flags' own ports tell other flags apart (R126, R127). -/
theorem MicroOp.plan_withFlags {m : MicroOp} {s : State} {f : Flags} (hbit : ∀ b, m = flagsBit b → f.bit b = s.flags.bit b) :
    m.plan (s.withFlags f) = m.plan s := by
  have hreg (x : Reg) : (s.withFlags f).getReg x = s.getReg x := State.getReg_congr rfl rfl rfl rfl rfl x
  cases m
  case rd x b => simp only [plan, hreg]
  case rselRd b => simp only [plan, hreg]; rfl
  case flagsBit b => exact congrArg (fun v => Except.ok (Write.hidden (.bus .ext) (bitWord v))) (hbit b rfl)
  all_goals rfl

theorem State.perform_withFlags {s : State} {f : Flags} {w : Write} (hw : ∀ r, w ≠ .flags r) :
    (s.withFlags f).perform w = (s.perform w).withFlags f := by
  match w, hw with
  | .hidden h v, _ => rcases h with (_ | _ | _) | (_ | _) | _ | _ | (_ | _) | _ <;> rfl
  | .reg x v, _ => cases x <;> rfl
  | .cell a v, _ => rfl
  | .flags r, hw => exact absurd rfl (hw r)

/-- A micro-operation that does not write the flags, and reads no bit that changed, does the same under other flags. -/
theorem MicroOp.apply_withFlags {m : MicroOp} {s : State} {f : Flags} (hupd : m ≠ flagsUpd)
    (hbit : ∀ b, m = flagsBit b → f.bit b = s.flags.bit b) : m.apply (s.withFlags f) = (m.apply s).map (State.withFlags f) := by
  rw [apply_eq_plan, apply_eq_plan, plan_withFlags hbit]
  cases hw : m.plan s with
  | error g => rfl
  | ok w =>
    refine congrArg Except.ok (State.perform_withFlags fun r hr => hupd ?_)
    subst hr; exact mayPerform_of_plan hw

/-! ### Sequences that leave the flags -/

/-- The micro-operation reads no bit of the flags but `bits`. -/
def MicroOp.readsOnly (bits : List FlagBit) : MicroOp → Bool
  | .flagsBit b => decide (b ∈ bits)
  | _ => true

/-- A sequence that leaves the flags, and reads no bit that changed, does the same under other flags. -/
theorem runSeq_withFlags {bits : List FlagBit} {seq : List MicroOp} {s : State} {f : Flags} (hspares : seq.all MicroOp.sparesFlags = true)
    (hreads : seq.all (MicroOp.readsOnly bits) = true) (hbits : ∀ b ∈ bits, f.bit b = s.flags.bit b) :
    runSeq seq (s.withFlags f) = (runSeq seq s).withFlags f := by
  induction seq generalizing s with
  | nil => rfl
  | cons m rest ih =>
    rw [List.all_cons, Bool.and_eq_true] at hspares hreads
    obtain ⟨hm, hrest⟩ := hspares
    obtain ⟨hread, hreads⟩ := hreads
    have hupd := ne_flagsUpd_of_sparesFlags hm
    have hstep := apply_withFlags hupd fun b hb => hbits b (by subst hb; exact of_decide_eq_true hread)
    cases happ : m.apply s with
    | error g => rw [happ] at hstep; rw [runSeq_cons_error rest happ, runSeq_cons_error rest hstep]; rfl
    | ok u =>
      rw [happ] at hstep
      rw [runSeq_cons_ok rest happ, runSeq_cons_ok rest hstep]
      exact ih hrest hreads fun b hb => (hbits b hb).trans (congrArg (Flags.bit · b) (apply_flags happ hupd).symm)

/-- The bits of the flags that an instruction reads. -/
def bitsRead : Instr → List FlagBit
  | .jz _ => [.zero]
  | .jn _ => [.negative]
  | _ => []

/-- An instruction that does not write the flags leaves them, and reads no bit but its own. -/
theorem sparesFlags_of_seqOf {c : Config} {i : Instr} {seq : List MicroOp} (hi : writesFlags i = false) (h : seqOf c i = some seq) :
    seq.all MicroOp.sparesFlags = true ∧ seq.all (MicroOp.readsOnly (bitsRead i)) = true := by
  cases i
  case jmp a =>
    obtain rfl : jmpSeq c.jmpMode (operandRead a) = seq := Option.some.inj h
    cases c.jmpMode <;> exact ⟨rfl, rfl⟩
  case imulMemReg | imulRegMem | imulRegReg =>
    rw [seqOf] at h
    cases hmode : c.imulMode <;> rw [hmode] at h <;> cases h <;> exact ⟨rfl, rfl⟩
  case moveMemReg | moveRegMem | moveRegReg | moveImmReg | jz | jn | read | store | ldi => cases h; exact ⟨rfl, rfl⟩
  all_goals cases hi

/-! ### Sequences that write the flags -/

/-- The sequence writes the flags before it reads them. -/
def overwritesFlags : List MicroOp → Bool
  | .flagsUpd :: _ => true
  | .flagsBit _ :: _ => false
  | _ :: rest => overwritesFlags rest
  | [] => false

theorem runSeq_of_overwritesFlags {seq : List MicroOp} {s : State} (h : overwritesFlags seq = true) (hrun : (runSeq seq s).run = .running)
    (f : Flags) : runSeq seq (s.withFlags f) = runSeq seq s := by
  induction seq using overwritesFlags.induct generalizing s with
  | case1 rest => rfl
  | case2 b rest => cases h
  | case3 m rest hupd hbit ih =>
    rw [overwritesFlags.eq_3 _ _ hupd hbit] at h
    have hstep := apply_withFlags (s := s) (f := f) hupd fun b hb => (hbit b hb).elim
    cases happ : m.apply s with
    | error g => rw [runSeq_cons_error rest happ] at hrun; cases hrun
    | ok u =>
      rw [happ] at hstep
      rw [runSeq_cons_ok rest happ] at hrun
      rw [runSeq_cons_ok rest happ, runSeq_cons_ok rest hstep]
      exact ih h hrun
  | case4 => cases h

theorem overwritesFlags_of_seqOf {c : Config} {i : Instr} {seq : List MicroOp} (hi : writesFlags i = true) (h : seqOf c i = some seq) :
    overwritesFlags seq = true := by
  cases i
  case jmp | imulMemReg | imulRegMem | imulRegReg | moveMemReg | moveRegMem | moveRegReg | moveImmReg | jz | jn | read | store | ldi =>
    cases hi
  all_goals cases h; rfl

/-- Settles O60: thirteen sequences have no FLAGS.upd and read at most the bit of their jump; the sixteen others reach FLAGS.upd before any
read of the flags. -/
theorem flagReadersAndWriters : Obligations.FlagReadersAndWriters := by
  intro s t i f _ h
  obtain rfl := exec_eq_next.mp h
  have hexec : exec i { s with flags := f } = .next (runSelected (seqOf s.cfg i) (s.withFlags f)) := exec_eq_seqOf i (s.withFlags f)
  rw [hexec]
  refine ⟨runSeq_flags rfl s, fun hi => ?kept, fun hi hrun => ?writer, fun hi hz hn => ?reader⟩
  all_goals cases hseq : seqOf s.cfg i
  case kept.none | reader.none => rfl
  case writer.none => rw [hseq] at hrun; cases hrun
  case kept.some seq =>
    obtain ⟨hspares, -⟩ := sparesFlags_of_seqOf hi hseq
    exact runSeq_flags hspares s
  case writer.some seq =>
    rw [hseq] at hrun
    exact congrArg Host.Outcome.next (runSeq_of_overwritesFlags (overwritesFlags_of_seqOf hi hseq) hrun f)
  case reader.some seq =>
    obtain ⟨hspares, hreads⟩ := sparesFlags_of_seqOf hi hseq
    refine congrArg Host.Outcome.next (runSeq_withFlags hspares hreads fun b hb => ?_)
    cases i
    case jz a => cases List.mem_singleton.mp hb; exact hz a rfl
    case jn a => cases List.mem_singleton.mp hb; exact hn a rfl
    all_goals cases hb

end Sys2Proof.Machine
end
